-- ==== Sys2Proof/Word.lean ====
section
/-! DEFINITION. The word types of the VC-412 and the four-fold container of its outlets. -/

namespace Sys2Proof

/-- One byte of a frame, of the configuration image or of a reader message. -/
abbrev Byte := BitVec 8

/-- A value of the 24-bit position counter (R1, R3): it wraps modulo 16,777,216. -/
abbrev Position := BitVec 24

/-- One value for each of four like things: the four outlets (R63), the four speed samples (R8). -/
structure Quad (α : Type) where
  q0 : α
  q1 : α
  q2 : α
  q3 : α
  deriving DecidableEq, Repr

/-- The value at place `k`. -/
def Quad.get {α : Type} (q : Quad α) : Fin 4 → α
  | 0 => q.q0
  | 1 => q.q1
  | 2 => q.q2
  | 3 => q.q3

/-- The same four values but for place `k`. -/
def Quad.set {α : Type} (q : Quad α) (k : Fin 4) (a : α) : Quad α :=
  match k with
  | 0 => { q with q0 := a }
  | 1 => { q with q1 := a }
  | 2 => { q with q2 := a }
  | 3 => { q with q3 := a }

/-- Apply `f` at each of the four places. -/
def Quad.map {α β : Type} (f : α → β) (q : Quad α) : Quad β :=
  ⟨f q.q0, f q.q1, f q.q2, f q.q3⟩

/-- The four values in order of their numbers. -/
def Quad.toList {α : Type} (q : Quad α) : List α :=
  [q.q0, q.q1, q.q2, q.q3]

/-- The same value at each place. -/
def Quad.all {α : Type} (a : α) : Quad α := ⟨a, a, a, a⟩

end Sys2Proof
end

