-- ==== Sys2Proof/Syntax.lean ====
section
/-! DEFINITION. The commands of the VC-412: one constructor for each row of spec/opcode_table.json,
each an event of the manual, with what the event brings from outside the node. -/

namespace Sys2Proof

/-- The number of an outlet, 0 to 3. -/
abbrev OutletNo := Fin 4

/-- The identity of a bag on the loop: inducting station and sequence (section 2.1). -/
structure BagRef where
  station : Nat
  seq : Nat
  deriving DecidableEq, Repr

/-- One character of the hall line as the receiver samples it (R106): its eight data bits, its mark
bit, its parity bit, and whether its stop bit is at the stop level. -/
structure LineChar where
  data : Byte
  mark : Bool
  parity : Bool
  stopOk : Bool
  deriving DecidableEq, Repr

/-- The level inputs the node finds at the release of reset: for each outlet whether a cart is
present, the hold switch is on and the home sensor is asserted; and the segment clear input. -/
structure PinLevels where
  carts : Quad Bool
  holds : Quad Bool
  homes : Quad Bool
  clear : Bool
  deriving DecidableEq, Repr

/-- The commands. A `body` is the data bytes of the body characters of the frame in progress that are
still to come, up to and including the one that ends it (section 6.2). A position wait, a confirm timer
and a discard timer are named by the bag ref of their record. -/
inductive Instr where
  | powerUpReset
  | resetRelease (straps : BitVec 5) (pins : PinLevels)
  | startSequenceEnd (image : List Byte)
  | encoderPulse
  | speedWindowEnd
  | entryEyeArrival
  | entryEyeTrailingEdge
  | mergeArrival (coded : Bool)
  | mergeEyeTrailingEdge
  | readerMessage (bytes : List Byte)
  | readerGapTimeout
  | readWindowOpen (ref : BagRef)
  | readWindowClose (ref : BagRef)
  | resolutionComplete
  | cabinFrame (body : List Byte)
  | cabinEntryClear
  | cabinEntryCancelled
  | cabinEntryHold
  | cabinEntryRedirect
  | arming (ref : BagRef)
  | fire (ref : BagRef)
  | dwellExpiry (k : OutletNo)
  | homeTimeout (k : OutletNo)
  | homeSensorEdge (k : OutletNo) (asserted : Bool)
  | chuteEntry (k : OutletNo)
  | confirmTimeout (ref : BagRef)
  | cartSwap (k : OutletNo)
  | cartRemoval (k : OutletNo)
  | holdSwitchChange (k : OutletNo) (on : Bool)
  | offerPoint (ref : BagRef)
  | segmentExit (ref : BagRef)
  | replyWindowExpiry
  | repeatIntervalExpiry
  | offerReceived (body : List Byte)
  | takeReceived (body : List Byte)
  | waitReceived (body : List Byte)
  | spurnReceived (body : List Byte)
  | discardTimeout (ref : BagRef)
  | expectedDeadline
  | codeReceived (body : List Byte)
  | crowdReceived (body : List Byte)
  | statusReceived (body : List Byte)
  | silenceTimeout (station : Nat)
  | askStatus (body : List Byte)
  | askCounts (body : List Byte)
  | holdRead (body : List Byte)
  | holdSet (body : List Byte)
  | holdClear (body : List Byte)
  | holdToggle (body : List Byte)
  | zero (body : List Byte)
  | faultOffer (body : List Byte)
  | faultCode (body : List Byte)
  | faultAsk (body : List Byte)
  | frameHead (c : LineChar)
  | characterError (c : LineChar)
  | receiveOverrun (body : List Byte)
  | badFrame (body : List Byte)
  | unactedFrame (body : List Byte)
  | gapReached
  | frameSent
  | collision
  | backoffEnd
  | statusTimerExpiry
  | segmentClearAssert
  | segmentClearRelease
  | damagedReaderByte (byte : Byte) (stopOk : Bool)
  deriving DecidableEq, Repr

end Sys2Proof
end

