-- ==== Sys2Proof/Config.lean ====
section
/-! DEFINITION. The capacities the manual fixes for every VC-412, and the one value it leaves open. -/

namespace Sys2Proof.Config

/-- Most records in the track table (R22). -/
def tableCapacity : Nat := 48
/-- Most records in the expected list (R141). -/
def expectedCapacity : Nat := 8
/-- Most entries in the pending-offer queue (R139). -/
def pendingOfferCapacity : Nat := 4
/-- Most frames in the answer queue (R120). -/
def answerCapacity : Nat := 4
/-- Most frames in the notice queue (R121). -/
def noticeCapacity : Nat := 8
/-- Most codes in the code queue (R157). -/
def codeCapacity : Nat := 8
/-- Most entries in the exception table (R44). -/
def exceptionCapacity : Nat := 256
/-- Most entries in a record's refusals (R18). -/
def refusalCapacity : Nat := 4
/-- The number at which a counter stops (R166). -/
def counterLimit : Nat := 65535
/-- The number at which a fill count stops (R84). -/
def fillLimit : Nat := 255
/-- The number at which a window count stops (R7). -/
def windowLimit : Nat := 4095
/-- Most bytes in the receive buffer (R110). -/
def bufferBytes : Nat := 32
/-- The number at which the line's idle count stops rising (R115). -/
def idleLimit : Nat := 255
/-- Milliseconds in a speed window (R6). -/
def windowMs : Nat := 20
/-- Milliseconds allowed between two bytes of a reader message (R31). -/
def readerGapMs : Nat := 5
/-- The status period of a node in FAULT, in milliseconds (R164). -/
def faultStatusPeriod : Nat := 1000
/-- Station 31: every station (broadcast). -/
def broadcast : Nat := 31
/-- The first byte of a reader message (R31). -/
def readerMarker : Byte := 0xA5#8
/-- The format byte of a configuration image (R178). -/
def imageFormat : Byte := 0xC4#8

/-- FREE VALUE. The length recorded when the distance from the lead position to the trail position
reads as negative (a belt that ran more than 8,388,607 counts while the bag stood in the eye).
R27 gives the length as that distance, from 0 to 65,535, and states no result for a negative one.
Nothing is known of it but the 16-bit limit that its one user puts on it. Log entry 1. -/
opaque unstatedLength : Position → Position → Nat

end Sys2Proof.Config
end

