-- ==== Sys2Proof/Machine/Bytes.lean ====
section
/-! DEFINITION. Bytes, two-byte fields, check bytes and the characters of the hall line. -/

namespace Sys2Proof.Machine

/-- The byte of a number, modulo 256. -/
def byteOf (n : Nat) : Byte := BitVec.ofNat 8 n

/-- A two-byte field, high byte first (sections 6.2 and 10.3). -/
def u16 (n : Nat) : List Byte := [byteOf (n / 256), byteOf n]

/-- The number a two-byte field holds. -/
def ofU16 (hi lo : Byte) : Nat := hi.toNat * 256 + lo.toNat

/-- The byte of a Bool: 1 or 0. -/
def byteOfBool (b : Bool) : Byte := if b then 1#8 else 0#8

/-- The sum of bytes modulo 256 (R31, R178). -/
def byteSum (l : List Byte) : Byte := l.foldl (· + ·) 0#8

/-- The exclusive-or of bytes: the check of a frame (section 6.2). -/
def byteXor (l : List Byte) : Byte := l.foldl (· ^^^ ·) 0#8

/-- The bag ref as its two-byte field holds it: station in the high five bits, sequence in the low
eleven (sections 5.4, 7.2 and 7.4). -/
def refBytes (r : BagRef) : List Byte := u16 (r.station * 2048 + r.seq)

/-- The bag ref that two bytes hold. -/
def refOf (hi lo : Byte) : BagRef :=
  { station := ofU16 hi lo / 2048, seq := ofU16 hi lo % 2048 }

/-- Is a station number one that a station may have (1 to 30)? -/
def validStation (n : Nat) : Bool := decide (1 ≤ n ∧ n ≤ 30)

/-- Is a cabin number one that a cabin may have (1000 to 19999)? -/
def validCabin (n : Nat) : Bool := decide (1000 ≤ n ∧ n ≤ 19999)

/-- How many of the eight data bits are ones. -/
def onesIn (b : Byte) : Nat := ((List.range 8).filter b.getLsbD).length

/-- R106, R112: data, mark and parity bits together hold an even number of ones. -/
def parityHolds (c : LineChar) : Bool :=
  decide ((onesIn c.data + c.mark.toNat + c.parity.toNat) % 2 = 0)

/-- R112: the character has neither a framing nor a parity error. -/
def charSound (c : LineChar) : Bool := c.stopOk && parityHolds c

/-- R106: the character the transmitter sends for a byte; the mark is set in a frame's head alone. -/
def charOf (data : Byte) (mark : Bool) : LineChar :=
  { data, mark, parity := decide ((onesIn data + mark.toNat) % 2 = 1), stopOk := true }

/-- R106: the twelve bits of a character in the order they are sent, `true` being the stop level
for the start and stop bits, and a one for the others. -/
def charBits (c : LineChar) : List Bool :=
  false :: (List.range 8).map c.data.getLsbD ++ [c.mark, c.parity, c.stopOk]

end Sys2Proof.Machine
end

