-- ==== Sys2Proof/Machine/State.lean ====
section
/-! DEFINITION. The state of a VC-412: the image values, the bag records, the state each of its nine
blocks owns ("Blocks of the VC-412"), the queue of waiting commands, and all of it after reset. -/

namespace Sys2Proof.Machine

/-! ## The configuration image's values (section 10.3) -/

/-- Speed bands (section 1.4). -/
inductive Band where
  | slow | normal | fast
  deriving DecidableEq, Repr

/-- What an outlet's chute feeds (R63). -/
inductive Role where
  | unused | deck | stray
  deriving DecidableEq, Repr

/-- The hall line's rates (R107): divides of 128, 64 and 32. -/
inductive LineRate where
  | kbit125 | kbit250 | kbit500
  deriving DecidableEq, Repr

/-- One outlet's image values (R63). -/
structure OutletConfig where
  role : Role
  distance : Nat
  maxLength : Nat
  leadSlow : Nat
  leadNormal : Nat
  leadFast : Nat
  dwell : Nat
  homeTimeout : Nat
  confirmTimeout : Nat
  capacity : Nat
  deriving DecidableEq, Repr

/-- A window's carve-out (R40). -/
structure CarveOut where
  low : Nat
  high : Nat
  outlet : OutletNo
  deriving DecidableEq, Repr

/-- A cabin window (R40). -/
structure Window where
  base : Nat
  limit : Nat
  outlet : OutletNo
  carve : Option CarveOut
  deriving DecidableEq, Repr

/-- The values the blocks take from the image at the entry to RUN (R181). -/
structure NodeConfig where
  rate : LineRate
  manifest : Nat
  coding : Nat
  supervisory : Nat
  downstream : Nat
  loopHead : Bool
  lapLimit : Nat
  readerFitted : Bool
  readerRate : Nat
  readerDistance : Nat
  readerLatency : Nat
  tolerance : Nat
  armDistance : Nat
  gapSlow : Nat
  gapNormal : Nat
  gapFast : Nat
  up01 : Nat
  up12 : Nat
  hysteresis : Nat
  stopThreshold : Nat
  statusPeriod : Nat
  offerDistance : Nat
  segmentLength : Nat
  replyWindow : Nat
  repeatInterval : Nat
  attemptLimit : Nat
  expectDistance : Nat
  discardTimeout : Nat
  induction : Bool
  mergeDistance : Nat
  mergeWindow : Nat
  watchSet : BitVec 32
  silenceTimeout : Nat
  highWater : Nat
  lowWater : Nat
  outlets : Quad OutletConfig
  windows : List Window
  deriving DecidableEq, Repr

/-- An outlet before any image has been read: UNUSED. DESIGN CHOICE, log entry 2. -/
def OutletConfig.blank : OutletConfig :=
  { role := .unused, distance := 0, maxLength := 0, leadSlow := 0, leadNormal := 0, leadFast := 0,
    dwell := 0, homeTimeout := 0, confirmTimeout := 0, capacity := 0 }

/-- The image values before any image has been read. DESIGN CHOICE, log entry 2. -/
def NodeConfig.blank : NodeConfig :=
  { rate := .kbit125, manifest := 0, coding := 0, supervisory := 0, downstream := 0,
    loopHead := false, lapLimit := 0, readerFitted := false, readerRate := 0, readerDistance := 0,
    readerLatency := 0, tolerance := 0, armDistance := 0, gapSlow := 0, gapNormal := 0,
    gapFast := 0, up01 := 0, up12 := 0, hysteresis := 0, stopThreshold := 0, statusPeriod := 0,
    offerDistance := 0, segmentLength := 0, replyWindow := 0, repeatInterval := 0,
    attemptLimit := 0, expectDistance := 0, discardTimeout := 0, induction := false,
    mergeDistance := 0, mergeWindow := 0, watchSet := 0, silenceTimeout := 0, highWater := 0,
    lowWater := 0, outlets := Quad.all OutletConfig.blank, windows := [] }

/-! ## The bag record (section 2.1) -/

/-- How a tag was learnt; a record without a tag has tag status NONE. -/
inductive TagSource where
  | read | coded
  deriving DecidableEq, Repr

/-- A tag: cabin, letter 0..7, and how it was learnt. -/
structure Tag where
  cabin : Nat
  letter : Nat
  source : TagSource
  deriving DecidableEq, Repr

/-- Stray causes (section 5.1). -/
inductive StrayCause where
  | noread | anon | cancelled | hold | duplicate | laps | doubt | oversize
  deriving DecidableEq, Repr

/-- Refusal causes (section 2.1). -/
inductive RefusalCause where
  | full | held | noCart | faulted | busy | gap | oversize | pushMiss
  deriving DecidableEq, Repr

/-- One entry of a record's refusals (R18). -/
structure RefusalEntry where
  station : Nat
  cause : RefusalCause
  deriving DecidableEq, Repr

/-- A node's decision for a record (Chapter 3). -/
inductive Verdict where
  | unresolved
  | pass
  | divert (k : OutletNo)
  | stray (k : OutletNo)
  deriving DecidableEq, Repr

/-- A record's passage under the tag reader (R32). -/
inductive ReadWindow where
  | notOpen | open | closed
  deriving DecidableEq, Repr

/-- Where a record stands in the node's work (R19). -/
inductive RecordState where
  | pending | expected | onBelt | armed | diverting | exiting
  deriving DecidableEq, Repr

/-- A node's knowledge of one bag. The fields of the manual's table come first, in its order (cabin,
letter and tag status are `tag`; the stray-bound mark with its cause is `stray`); then what the rules
keep for a record beside them. -/
structure Record where
  ref : BagRef
  tag : Option Tag
  length : Option Nat
  laps : Nat
  stray : Option StrayCause
  lengthDoubt : Bool
  relabelled : Bool
  refusals : List RefusalEntry
  lead : Option Position
  trail : Option Position
  measuredHere : Bool
  verdict : Verdict
  firePosition : Option Position
  window : ReadWindow
  state : RecordState
  /-- The verdict is fixed (R57). -/
  verdictFixed : Bool
  /-- The record's resolution is due (R59; EXPECTED records). -/
  resolutionDue : Bool
  /-- The entry is READY; otherwise RESOLVING (R139; PENDING records). -/
  ready : Bool
  /-- The offer-point wait has been taken (R126). -/
  pastOfferPoint : Bool
  /-- The record holds or has held the outbound offer (R128). -/
  heldOffer : Bool
  /-- The expected-list deadline (R141). -/
  deadline : Option Position
  /-- Milliseconds run by the discard timer, while it runs (R142). -/
  discardTimer : Option Nat
  /-- Milliseconds run by the confirm timer, while it runs (R74). -/
  confirmTimer : Option Nat
  deriving DecidableEq, Repr

/-! ## The Position Unit (Chapter 1) -/

/-- What the Position Unit owns (R15). OVERSPEED stands among the sticky flags. -/
structure PositionUnit where
  counter : Position
  windowCount : Nat
  /-- The last four completed window counts, oldest first. -/
  ring : Quad Nat
  speed : Nat
  band : Band
  stopped : Bool
  /-- Milliseconds run by the window timer, while it runs (R6). -/
  windowTimer : Option Nat
  deriving DecidableEq, Repr

/-! ## The Track Unit (Chapter 2) -/

/-- What the Track Unit owns (R36). -/
structure TrackUnit where
  /-- The track table, front-most record first (R22). -/
  table : List Record
  /-- The bag sequence (R29). -/
  bagSeq : Nat
  /-- The open record at the entry eye. -/
  openEntry : Option BagRef
  /-- The open record at the merge eye. -/
  openMerge : Option BagRef
  /-- The bytes of the reader message in progress (R31). -/
  readerBytes : List Byte
  /-- Milliseconds since the last byte of the message in progress. -/
  readerGap : Option Nat
  deriving DecidableEq, Repr

/-! ## The Resolution Unit (Chapter 3) -/

/-- The kind of an exception (R44). -/
inductive ExceptionKind where
  | cancelled
  | hold
  | redirect (target : Nat)
  deriving DecidableEq, Repr

/-- One entry of the exception table (R44). -/
structure ExceptionEntry where
  cabin : Nat
  kind : ExceptionKind
  deriving DecidableEq, Repr

/-- One five-byte entry of a CABIN frame, as received (R45). -/
structure CabinEntry where
  cabin : Nat
  kind : Nat
  target : Nat
  deriving DecidableEq, Repr

/-- The resolution in service: the record it is for, `none` once that record has left the node (R21),
and its result, worked from the record, windows and table as they stood at its start (R52, R55). -/
structure Service where
  owner : Option BagRef
  verdict : Verdict
  mark : Option StrayCause
  deriving DecidableEq, Repr

/-- What the Resolution Unit owns (R62); the windows stand in the image values. -/
structure ResolutionUnit where
  /-- The exception table, in ascending order of cabin (R44). -/
  exceptions : List ExceptionEntry
  /-- The request queue, head first; a request names its record (R58). -/
  requests : List BagRef
  service : Option Service
  /-- Entries of CABIN frames taken and not yet applied, each an event of its own (R45). -/
  cabinEntries : List CabinEntry
  deriving DecidableEq, Repr

/-! ## The Outlet Units (Chapter 4) -/

/-- Pusher states (R76). -/
inductive Pusher where
  | home | extended | retracting | notHome
  deriving DecidableEq, Repr

/-- What one Outlet Unit owns (R89), and the levels of its inputs. FULL, HELD and NOCART are read
from the fill count, the two holds and the cart sensor (R65). -/
structure Outlet where
  pusher : Pusher
  dwellTimer : Option Nat
  homeTimer : Option Nat
  faulted : Bool
  lineHold : Bool
  fill : Nat
  /-- The outlet's DIVERTING records in the order of their fire events (R81). -/
  diverting : List BagRef
  holdSwitch : Bool
  cartPresent : Bool
  homeSensor : Bool
  deriving DecidableEq, Repr

/-! ## The Line Interface (Chapter 6) -/

/-- The kinds of frame (section 6.2). -/
inductive FrameKind where
  | offer | take | wait | spurn | missing | stray | crowd | status | cabin | code | hold
  | holdAnswer | ask | counts | zero
  deriving DecidableEq, Repr

/-- A frame as its owner hands it over (R108). -/
structure OutFrame where
  dest : Nat
  kind : FrameKind
  payload : List Byte
  deriving DecidableEq, Repr

/-- The sources of the transmit arbiter (R122). -/
inductive FrameSource where
  | answer | offer | notices | status
  deriving DecidableEq, Repr

/-- The three sources that take turns (R122). -/
inductive Turn where
  | offer | notices | status
  deriving DecidableEq, Repr

/-- The frame the transmitter holds, where it came from, and its collision number (R117). -/
structure HeldFrame where
  source : FrameSource
  frame : OutFrame
  collisions : Nat
  deriving DecidableEq, Repr

/-- Transmitter states (section 6.4). In BACKOFF: its length and its count, in bit times. -/
inductive Transmitter where
  | idle
  | waitGap (h : HeldFrame)
  | sending (h : HeldFrame)
  | backoff (h : HeldFrame) (len count : Nat)
  deriving DecidableEq, Repr

/-- Receiver states (section 6.3); `off` in START and on a silent node in FAULT (R125, R182). -/
inductive Receiver where
  | off | hunt | body | discard
  deriving DecidableEq, Repr

/-- What the Line Interface owns (R125). -/
structure LineInterface where
  receiver : Receiver
  /-- The receive buffer: in BODY the bytes of the frame in progress so far, its head first; empty in
  every other receiver state (R109, R110). -/
  buffer : List Byte
  rate : LineRate
  idleCount : Nat
  /-- The model's own: the bit times that have run of the millisecond in progress on the internal
  timebase. Log entry 4. -/
  msBits : Nat
  transmitter : Transmitter
  answers : List OutFrame
  notices : List OutFrame
  turn : Turn
  deriving DecidableEq, Repr

/-! ## The Handoff Unit (Chapter 7) -/

/-- States of the outbound offer (R128); `listening` and `resting` hold the milliseconds that the
reply window or the repeat interval has run. `spent`: R130, R132. -/
inductive OfferStage where
  | due
  | onLine
  | listening (ms : Nat)
  | resting (ms : Nat)
  | spent
  deriving DecidableEq, Repr

/-- The outbound offer: the record that holds it, its state and its attempt count (R128). -/
structure Outbound where
  ref : BagRef
  stage : OfferStage
  attempts : Nat
  deriving DecidableEq, Repr

/-- What the Handoff Unit owns (R148). -/
structure HandoffUnit where
  outbound : Option Outbound
  /-- The pending-offer queue, oldest first (R139). -/
  pendingOffers : List Record
  /-- The expected list, head first (R144). -/
  expected : List Record
  deriving DecidableEq, Repr

/-! ## The Induction Unit (Chapter 8) -/

/-- A code of the code queue (R157). -/
structure Code where
  cabin : Nat
  letter : Nat
  deriving DecidableEq, Repr

/-- One entry of the crowd view (R160). -/
structure CrowdEntry where
  station : Nat
  crowded : Bool
  silent : Bool
  age : Nat
  deriving DecidableEq, Repr

/-- What the Induction Unit owns (R163). -/
structure InductionUnit where
  codes : List Code
  crowdView : List CrowdEntry
  /-- The merge permit output (R151). -/
  permit : Bool
  deriving DecidableEq, Repr

/-! ## The Supervision Unit (Chapter 9) -/

/-- The 26 counters (R167). -/
structure Counters where
  delivered : Quad Nat
  straysDelivered : Nat
  refusals : Nat
  missing : Nat
  abandoned : Nat
  spurnedOffers : Nat
  noAnswers : Nat
  pendingDiscards : Nat
  anonymous : Nat
  untracked : Nat
  unboundReads : Nat
  duplicates : Nat
  droppedExceptions : Nat
  parityErrors : Nat
  framingErrors : Nat
  overruns : Nat
  truncated : Nat
  checkErrors : Nat
  collisions : Nat
  lineAborts : Nat
  droppedNotices : Nat
  unexpectedEntries : Nat
  foreignFrames : Nat
  deriving DecidableEq, Repr

/-- Every counter at 0 (R166, R172). -/
def Counters.allZero : Counters :=
  { delivered := Quad.all 0, straysDelivered := 0, refusals := 0, missing := 0, abandoned := 0,
    spurnedOffers := 0, noAnswers := 0, pendingDiscards := 0, anonymous := 0, untracked := 0,
    unboundReads := 0, duplicates := 0, droppedExceptions := 0, parityErrors := 0,
    framingErrors := 0, overruns := 0, truncated := 0, checkErrors := 0, collisions := 0,
    lineAborts := 0, droppedNotices := 0, unexpectedEntries := 0, foreignFrames := 0 }

/-- The sticky flags that are set and cleared by events; SILENT WATCH is read from the crowd view
(R161, section 9.4). -/
structure StickyFlags where
  overspeed : Bool
  exceptionOverrun : Bool
  countLimit : Bool
  queueDrop : Bool
  forcedMerge : Bool
  deriving DecidableEq, Repr

/-- The one due STATUS (R164). -/
inductive DueStatus where
  | notDue | due | held
  deriving DecidableEq, Repr

/-- What the Supervision Unit owns (R174). -/
structure SupervisionUnit where
  counters : Counters
  flags : StickyFlags
  /-- Milliseconds run by the status timer, while it runs, and its period. -/
  statusTimer : Option Nat
  statusPeriod : Nat
  statusDue : DueStatus
  /-- The node's own crowded state (R158). -/
  crowded : Bool
  deriving DecidableEq, Repr

/-! ## The Start Unit (Chapter 10) -/

/-- Node states (R176, R182). -/
inductive NodeState where
  | start | run | fault
  deriving DecidableEq, Repr

/-- Fault reasons (R176). -/
inductive FaultReason where
  | none | strap | noImage | checksum | format | range | geometry | window
  deriving DecidableEq, Repr

/-- What the Start Unit owns, the station number, the image values, and the levels of the reset and
segment clear inputs. -/
structure StartUnit where
  node : NodeState
  faultReason : FaultReason
  /-- The reset input is asserted (R175). -/
  resetHeld : Bool
  station : Nat
  /-- The segment clear input is asserted (R184). -/
  clearHeld : Bool
  image : NodeConfig
  deriving DecidableEq, Repr

/-! ## The whole -/

/-- The state of a VC-412. `pending` is the model's queue of commands, first in, first out. -/
structure State where
  position : PositionUnit
  track : TrackUnit
  resolution : ResolutionUnit
  outlets : Quad Outlet
  line : LineInterface
  handoff : HandoffUnit
  induction : InductionUnit
  supervision : SupervisionUnit
  start : StartUnit
  pending : List Instr
  deriving DecidableEq, Repr

/-- Why the model stops: never. No command of the VC-412 ends a run (the node's own FAULT is a state
of the node, R182), so this type has no constructor. Safe. -/
inductive Fault where
  deriving DecidableEq, Repr

/-- Why a command has no meaning in the model. -/
inductive Refusal where
  /-- Raised by `exec`'s arm of a command that the model gives no meaning yet; no arm does. Safe: the
  model stops where the node goes on. -/
  | notModelled (mnemonic : String)
  deriving DecidableEq, Repr

/-- An outlet after power-up reset (R89). The pusher state is decided at the entry to RUN (R76): HOME
until then, and the input levels until the release of reset, are DESIGN CHOICE, log entry 2. -/
def Outlet.reset : Outlet :=
  { pusher := .home, dwellTimer := none, homeTimer := none, faulted := false, lineHold := false,
    fill := 0, diverting := [], holdSwitch := false, cartPresent := false, homeSensor := false }

/-- The node in power-up reset, before its release (R175; R15, R36, R62, R89, R125, R148, R163,
R174). The queue of commands is empty. -/
def State.reset : State :=
  { position :=
      { counter := 0, windowCount := 0, ring := Quad.all 0, speed := 0, band := .slow,
        stopped := true, windowTimer := none }
    track :=
      { table := [], bagSeq := 0, openEntry := none, openMerge := none, readerBytes := [],
        readerGap := none }
    resolution := { exceptions := [], requests := [], service := none, cabinEntries := [] }
    outlets := Quad.all Outlet.reset
    line :=
      { receiver := .off, buffer := [], rate := .kbit125, idleCount := 0, msBits := 0, transmitter := .idle,
        answers := [], notices := [], turn := .offer }
    handoff := { outbound := none, pendingOffers := [], expected := [] }
    induction := { codes := [], crowdView := [], permit := false }
    supervision :=
      { counters := Counters.allZero
        flags :=
          { overspeed := false, exceptionOverrun := false, countLimit := false,
            queueDrop := false, forcedMerge := false }
        statusTimer := none, statusPeriod := 0, statusDue := .notDue, crowded := false }
    start :=
      { node := .start, faultReason := .none, resetHeld := true, station := 0, clearHeld := false,
        image := NodeConfig.blank }
    pending := [] }

end Sys2Proof.Machine
end

