-- ==== Sys2Proof/Machine/Flags.lean ====
section
/-! DEFINITION. Counters and sticky flags: what raises, sets and clears them (R166, R168, section 9.4). -/

namespace Sys2Proof.Machine

/-- The counters by name (R167). -/
inductive Counter where
  | delivered (k : OutletNo)
  | straysDelivered | refusals | missing | abandoned
  | spurnedOffers | noAnswers | pendingDiscards | anonymous | untracked | unboundReads | duplicates
  | droppedExceptions
  | parityErrors | framingErrors | overruns | truncated | checkErrors | collisions | lineAborts
  | droppedNotices
  | unexpectedEntries | foreignFrames
  deriving DecidableEq, Repr

/-- The number a counter holds. -/
def Counters.get (cs : Counters) : Counter → Nat
  | .delivered k => cs.delivered.get k
  | .straysDelivered => cs.straysDelivered
  | .refusals => cs.refusals
  | .missing => cs.missing
  | .abandoned => cs.abandoned
  | .spurnedOffers => cs.spurnedOffers
  | .noAnswers => cs.noAnswers
  | .pendingDiscards => cs.pendingDiscards
  | .anonymous => cs.anonymous
  | .untracked => cs.untracked
  | .unboundReads => cs.unboundReads
  | .duplicates => cs.duplicates
  | .droppedExceptions => cs.droppedExceptions
  | .parityErrors => cs.parityErrors
  | .framingErrors => cs.framingErrors
  | .overruns => cs.overruns
  | .truncated => cs.truncated
  | .checkErrors => cs.checkErrors
  | .collisions => cs.collisions
  | .lineAborts => cs.lineAborts
  | .droppedNotices => cs.droppedNotices
  | .unexpectedEntries => cs.unexpectedEntries
  | .foreignFrames => cs.foreignFrames

/-- The counters with one of them at `n`. -/
def Counters.set (cs : Counters) (c : Counter) (n : Nat) : Counters :=
  match c with
  | .delivered k => { cs with delivered := cs.delivered.set k n }
  | .straysDelivered => { cs with straysDelivered := n }
  | .refusals => { cs with refusals := n }
  | .missing => { cs with missing := n }
  | .abandoned => { cs with abandoned := n }
  | .spurnedOffers => { cs with spurnedOffers := n }
  | .noAnswers => { cs with noAnswers := n }
  | .pendingDiscards => { cs with pendingDiscards := n }
  | .anonymous => { cs with anonymous := n }
  | .untracked => { cs with untracked := n }
  | .unboundReads => { cs with unboundReads := n }
  | .duplicates => { cs with duplicates := n }
  | .droppedExceptions => { cs with droppedExceptions := n }
  | .parityErrors => { cs with parityErrors := n }
  | .framingErrors => { cs with framingErrors := n }
  | .overruns => { cs with overruns := n }
  | .truncated => { cs with truncated := n }
  | .checkErrors => { cs with checkErrors := n }
  | .collisions => { cs with collisions := n }
  | .lineAborts => { cs with lineAborts := n }
  | .droppedNotices => { cs with droppedNotices := n }
  | .unexpectedEntries => { cs with unexpectedEntries := n }
  | .foreignFrames => { cs with foreignFrames := n }

/-- Change what the Supervision Unit owns, and nothing else. -/
def State.mapSupervision (f : SupervisionUnit → SupervisionUnit) (s : State) : State :=
  { s with supervision := f s.supervision }

/-- The sticky flags changed by `f`. -/
def State.mapFlags (f : StickyFlags → StickyFlags) (s : State) : State :=
  s.mapSupervision fun u => { u with flags := f u.flags }

/-- The number a counter holds. -/
def State.counter (s : State) (c : Counter) : Nat := s.supervision.counters.get c

/-- COUNT LIMIT is set (R168). -/
def setCountLimit (s : State) : State := s.mapFlags fun f => { f with countLimit := true }

/-- QUEUE DROP is set (R120, R121). -/
def setQueueDrop (s : State) : State := s.mapFlags fun f => { f with queueDrop := true }

/-- OVERSPEED is set (R7). -/
def setOverspeed (s : State) : State := s.mapFlags fun f => { f with overspeed := true }

/-- EXCEPTION OVERRUN is set (R49). -/
def setExceptionOverrun (s : State) : State :=
  s.mapFlags fun f => { f with exceptionOverrun := true }

/-- FORCED MERGE is set (R154). -/
def setForcedMerge (s : State) : State := s.mapFlags fun f => { f with forcedMerge := true }

/-- An event raises a counter (R166): it adds one, the rise to 65,535 sets COUNT LIMIT, and a counter
at 65,535 stays there. -/
def bump (c : Counter) (s : State) : State :=
  let n := s.counter c
  if Config.counterLimit ≤ n then s
  else
    let t := s.mapSupervision fun u => { u with counters := u.counters.set c (n + 1) }
    if n + 1 = Config.counterLimit then setCountLimit t else t

/-- Counters that do not rise in FAULT (R166, R182). -/
def bumpOutsideFault (c : Counter) (s : State) : State :=
  if s.start.node = .fault then s else bump c s

/-- SILENT WATCH holds while any entry of the crowd view is silent (R161). -/
def silentWatch (s : State) : Bool := s.induction.crowdView.any (·.silent)

/-- ZERO's effect on counters and sticky flags (R172). -/
def zeroCounters (s : State) : State :=
  s.mapSupervision fun u =>
    { u with
      counters := Counters.allZero
      flags := { u.flags with overspeed := false, countLimit := false, queueDrop := false } }

/-- The sticky flags' byte of a STATUS frame (R165). -/
def flagsByte (s : State) : Byte :=
  let f := s.supervision.flags
  byteOf (f.overspeed.toNat + 2 * f.exceptionOverrun.toNat + 4 * f.countLimit.toNat
    + 8 * f.queueDrop.toNat + 16 * (silentWatch s).toNat + 32 * f.forcedMerge.toNat)

end Sys2Proof.Machine
end

