-- ==== Sys2Proof/Machine/Frames.lean ====
section
/-! DEFINITION. The frames the VC-412 builds: kinds and their lengths, payload layouts, the bytes and
characters of a frame (sections 5.4, 6.2, 7.2, 7.4, 8.5, 9.2 and 9.3). -/

namespace Sys2Proof.Machine

/-! ## Codes -/

/-- The code of a kind (section 6.2). -/
def kindCode : FrameKind → Nat
  | .offer => 1 | .take => 2 | .wait => 3 | .spurn => 4 | .missing => 5 | .stray => 6 | .crowd => 7
  | .status => 8 | .cabin => 9 | .code => 10 | .hold => 11 | .holdAnswer => 12 | .ask => 13
  | .counts => 14 | .zero => 15

/-- The kind a code gives; other codes are unknown kinds (section 6.2). -/
def kindOfCode : Nat → Option FrameKind
  | 1 => some .offer | 2 => some .take | 3 => some .wait | 4 => some .spurn | 5 => some .missing
  | 6 => some .stray | 7 => some .crowd | 8 => some .status | 9 => some .cabin | 10 => some .code
  | 11 => some .hold | 12 => some .holdAnswer | 13 => some .ask | 14 => some .counts
  | 15 => some .zero | _ => none

/-- The payload lengths a kind may have (section 6.2). -/
def kindLengths : FrameKind → List Nat
  | .offer => [18] | .take => [2] | .wait => [2] | .spurn => [3] | .missing => [5] | .stray => [17]
  | .crowd => [2] | .status => [18] | .cabin => [5, 10, 15, 20] | .code => [3] | .hold => [2]
  | .holdAnswer => [2] | .ask => [1] | .counts => [17] | .zero => [0]

/-- The code of a stray cause (section 5.1); 0 stands for a record not stray-bound. -/
def causeCode : Option StrayCause → Nat
  | none => 0
  | some .noread => 1 | some .anon => 2 | some .cancelled => 3 | some .hold => 4
  | some .duplicate => 5 | some .laps => 6 | some .doubt => 7 | some .oversize => 8

/-- The stray cause of a code (section 5.1). -/
def causeOfCode : Nat → Option StrayCause
  | 1 => some .noread | 2 => some .anon | 3 => some .cancelled | 4 => some .hold
  | 5 => some .duplicate | 6 => some .laps | 7 => some .doubt | 8 => some .oversize | _ => none

/-- The code of a refusal cause (section 7.2). -/
def refusalCode : RefusalCause → Nat
  | .full => 1 | .held => 2 | .noCart => 3 | .faulted => 4 | .busy => 5 | .gap => 6
  | .oversize => 7 | .pushMiss => 8

/-- The refusal cause of a code (section 7.2). -/
def refusalOfCode : Nat → Option RefusalCause
  | 1 => some .full | 2 => some .held | 3 => some .noCart | 4 => some .faulted | 5 => some .busy
  | 6 => some .gap | 7 => some .oversize | 8 => some .pushMiss | _ => none

/-- The code of a tag status (section 5.4): 0 NONE, 1 READ, 2 CODED. -/
def tagStatusCode : Option Tag → Nat
  | none => 0
  | some t => match t.source with
    | .read => 1
    | .coded => 2

/-- The code of a fault reason (R176). -/
def faultCode : FaultReason → Nat
  | .none => 0 | .strap => 1 | .noImage => 2 | .checksum => 3 | .format => 4 | .range => 5
  | .geometry => 6 | .window => 7

/-- The number of a band (section 1.4). -/
def bandNumber : Band → Nat
  | .slow => 0 | .normal => 1 | .fast => 2

/-- The code of a role (section 10.3). -/
def roleCode : Role → Nat
  | .unused => 0 | .deck => 1 | .stray => 2

/-! ## Outlet conditions (R64, R65) -/

/-- Does outlet `k` take part in sorting? In START and FAULT the roles are not known or not trusted,
and all four outlets are followed (R85). -/
def outletFollowed (s : State) (k : OutletNo) : Bool :=
  decide (s.start.node ≠ .run) || decide ((s.start.image.outlets.get k).role ≠ .unused)

/-- FULL: the fill count is at least the capacity (R84); no capacity is known outside RUN (R85). -/
def isFull (s : State) (k : OutletNo) : Bool :=
  outletFollowed s k && decide (s.start.node = .run)
    && decide ((s.start.image.outlets.get k).capacity ≤ (s.outlets.get k).fill)

/-- HELD: the hold switch is on or the line hold bit is set (R65, R66). -/
def isHeld (s : State) (k : OutletNo) : Bool :=
  outletFollowed s k && ((s.outlets.get k).holdSwitch || (s.outlets.get k).lineHold)

/-- NOCART: no cart stands under the chute (R65, R85). -/
def isNoCart (s : State) (k : OutletNo) : Bool :=
  outletFollowed s k && !(s.outlets.get k).cartPresent

/-- FAULTED (R65). -/
def isFaulted (s : State) (k : OutletNo) : Bool :=
  outletFollowed s k && (s.outlets.get k).faulted

/-- An outlet is OPEN when none of its four conditions holds (R65). -/
def isOpen (s : State) (k : OutletNo) : Bool :=
  !isFull s k && !isHeld s k && !isNoCart s k && !isFaulted s k

/-- The pusher output is driven in EXTENDED alone (R76). -/
def pusherOutput (s : State) (k : OutletNo) : Bool := decide ((s.outlets.get k).pusher = .extended)

/-! ## Payloads -/

/-- A cabin's two bytes, 0 when it is absent. -/
def cabinBytes (t : Option Tag) : List Byte := u16 ((t.map (·.cabin)).getD 0)

/-- The tag byte (R101): letter in the low three bits, tag status in the next two. -/
def tagByte (t : Option Tag) : Byte := byteOf ((t.map (·.letter)).getD 0 + 8 * tagStatusCode t)

/-- One refusal entry's two bytes: station, then cause. -/
def refusalBytes (e : RefusalEntry) : List Byte := [byteOf e.station, byteOf (refusalCode e.cause)]

/-- The eight bytes of the refusals, oldest first; places beyond the count are zero. -/
def refusalsBytes (l : List RefusalEntry) : List Byte :=
  (l.flatMap refusalBytes ++ List.replicate 8 0#8).take 8

/-- The flags byte of an OFFER (section 7.2). -/
def offerFlags (r : Record) : Byte :=
  byteOf (r.stray.isSome.toNat + 2 * r.lengthDoubt.toNat + 4 * r.relabelled.toNat
    + 8 * causeCode r.stray + 128 * r.length.isSome.toNat)

/-- The OFFER payload (R136). -/
def offerPayload (r : Record) : List Byte :=
  refBytes r.ref ++ cabinBytes r.tag ++ [tagByte r.tag, offerFlags r, byteOf r.laps]
    ++ u16 (r.length.getD 0) ++ [byteOf r.refusals.length] ++ refusalsBytes r.refusals

/-- The STRAY notice's payload (R101). -/
def strayPayload (r : Record) : List Byte :=
  refBytes r.ref ++ cabinBytes r.tag
    ++ [tagByte r.tag, byteOf (causeCode r.stray), byteOf r.laps, byteOfBool r.relabelled,
      byteOf r.refusals.length]
    ++ refusalsBytes r.refusals

/-- The MISSING notice's payload (R145). -/
def missingPayload (r : Record) : List Byte :=
  refBytes r.ref ++ cabinBytes r.tag ++ [tagByte r.tag]

/-- The CROWD notice's payload (R159). -/
def crowdPayload (on : Bool) (occupancy : Nat) : List Byte := [byteOfBool on, byteOf occupancy]

/-- A mask of four bits, outlet 0 in bit 0 (R171). -/
def maskByte (q : Quad Bool) : Byte :=
  byteOf (q.q0.toNat + 2 * q.q1.toNat + 4 * q.q2.toNat + 8 * q.q3.toNat)

/-- The four line hold bits. -/
def lineHolds (s : State) : Quad Bool := s.outlets.map (·.lineHold)

/-- An outlet's byte of a STATUS frame (R165). -/
def outletByte (s : State) (k : OutletNo) : Byte :=
  byteOf (roleCode (s.start.image.outlets.get k).role + 4 * (isFull s k).toNat
    + 8 * (isHeld s k).toNat + 16 * (isNoCart s k).toNat + 32 * (isFaulted s k).toNat)

/-- The node state's byte of a STATUS frame (R165). -/
def nodeByte (s : State) : Byte :=
  let code := match s.start.node with
    | .fault => 3
    | .run => if s.start.clearHeld then 2 else 1
    | .start => 0
  byteOf (code + 4 * s.position.stopped.toNat + 8 * s.induction.permit.toNat)

/-- The STATUS payload (R165). In FAULT every field of the belt and the outlets is 0. -/
def statusPayload (s : State) : List Byte :=
  let head := [nodeByte s, byteOf (faultCode s.start.faultReason), byteOf (bandNumber s.position.band)]
    ++ u16 s.position.speed
  let middle :=
    if s.start.node = .fault then List.replicate 12 0#8
    else
      [byteOf s.track.table.length, byteOf s.handoff.expected.length,
        byteOfBool s.supervision.crowded]
        ++ [outletByte s 0, outletByte s 1, outletByte s 2, outletByte s 3]
        ++ s.outlets.toList.map (fun o => byteOf o.fill)
        ++ [byteOf (min 255 s.resolution.exceptions.length)]
  head ++ middle ++ [flagsByte s]

/-- The eight counters of a page; `none` is a place that is always zero (R167). -/
def pageCounters : Nat → List (Option Counter)
  | 1 => [some (.delivered 0), some (.delivered 1), some (.delivered 2), some (.delivered 3),
      some .straysDelivered, some .refusals, some .missing, some .abandoned]
  | 2 => [some .spurnedOffers, some .noAnswers, some .pendingDiscards, some .anonymous,
      some .untracked, some .unboundReads, some .duplicates, some .droppedExceptions]
  | 3 => [some .parityErrors, some .framingErrors, some .overruns, some .truncated,
      some .checkErrors, some .collisions, some .lineAborts, some .droppedNotices]
  | 4 => [some .unexpectedEntries, some .foreignFrames, none, none, none, none, none, none]
  | _ => []

/-- The COUNTS payload of a page (R167). -/
def countsPayload (s : State) (page : Nat) : List Byte :=
  byteOf page :: (pageCounters page).flatMap fun c => u16 ((c.map s.counter).getD 0)

/-! ## The bytes and characters of a frame -/

/-- The bytes of a frame as the transmitter of station `source` builds it (R108). -/
def frameBytes (source : Nat) (f : OutFrame) : List Byte :=
  let before :=
    [byteOf (f.dest % 32), byteOf source, byteOf (kindCode f.kind), byteOf f.payload.length]
      ++ f.payload
  before ++ [byteXor before]

/-- The characters of a frame: the mark is set in the first alone (R106). -/
def frameChars (source : Nat) (f : OutFrame) : List LineChar :=
  match frameBytes source f with
  | [] => []
  | h :: rest => charOf h true :: rest.map (charOf · false)

/-- What the node puts on the line: the characters of the frame it is SENDING, the line driver being
enabled for these alone (R115, R116). -/
def lineOutput (s : State) : List LineChar :=
  match s.line.transmitter with
  | .sending h => frameChars s.start.station h.frame
  | _ => []

end Sys2Proof.Machine
end

