-- ==== Sys2Proof/Machine/Operands.lean ====
section
/-! DEFINITION. What the node reads from its operands: frames as the receiver ends and tests them
(R110, R111), the payloads of each kind, and reader messages (R31). -/

namespace Sys2Proof.Machine

/-- A frame the receiver has collected and found good (R111). -/
structure InFrame where
  dest : Nat
  source : Nat
  kind : FrameKind
  payload : List Byte
  deriving DecidableEq, Repr

/-- Does the body end the frame: source, kind and length, a payload of that length, and the check
(R110)? Lengths of 28 or more overrun the buffer and never end a frame. -/
def bodyEnds (body : List Byte) : Bool :=
  match body with
  | _ :: _ :: n :: rest => decide (n.toNat ≤ 27) && decide (rest.length = n.toNat + 1)
  | _ => false

/-- Does the body run past the buffer's 32 bytes: a length byte of 28 or more, and the 32 body
characters of which the last would be the 33rd byte (R110)? -/
def bodyOverruns (body : List Byte) : Bool :=
  match body with
  | _ :: _ :: n :: rest => decide (28 ≤ n.toNat) && decide (rest.length = 29)
  | _ => false

/-- The five tests of a frame that has ended, in their order (R111); `none` where one fails. -/
def testFrame (head : Byte) (body : List Byte) : Option InFrame :=
  match body with
  | src :: kind :: n :: rest =>
    let payload := rest.take n.toNat
    if byteXor (head :: src :: kind :: n :: payload) ≠ rest.getD n.toNat 0#8 then none
    else if validStation src.toNat = false then none
    else if 24 < n.toNat then none
    else
      match kindOfCode kind.toNat with
      | none => none
      | some k =>
        if n.toNat ∈ kindLengths k then
          some { dest := head.toNat % 32, source := src.toNat, kind := k, payload }
        else none
  | _ => none

/-- The head of the frame in progress, if the receiver is in BODY. -/
def headInProgress (s : State) : Option Byte :=
  match s.line.receiver, s.line.buffer with
  | .body, h :: _ => some h
  | _, _ => none

/-- The body of the frame in progress once these bytes have entered the buffer, behind those it holds
already (R110). -/
def bodyWith (s : State) (more : List Byte) : List Byte := s.line.buffer.tail ++ more

/-- The good frame that ends with these bytes, if the receiver is in BODY and the frame is good. -/
def goodFrame (s : State) (more : List Byte) : Option InFrame :=
  match headInProgress s with
  | none => none
  | some h => if bodyEnds (bodyWith s more) then testFrame h (bodyWith s more) else none

/-- Do these bytes end a frame in BODY that is thrown away (R111)? -/
def badFrameEnds (s : State) (more : List Byte) : Bool :=
  match headInProgress s with
  | none => false
  | some h => bodyEnds (bodyWith s more) && (testFrame h (bodyWith s more)).isNone

/-- The good frame of kind `k` from another station that ends with these bytes: a frame the receiver
hands to a block (R111). -/
def handedFrame (s : State) (k : FrameKind) (body : List Byte) : Option InFrame :=
  match goodFrame s body with
  | none => none
  | some f => if f.kind = k ∧ f.source ≠ s.start.station then some f else none

/-- A payload's byte as a number. -/
def payloadByte (p : List Byte) (i : Nat) : Nat := (p.getD i 0#8).toNat

/-- The bag ref in a payload's first two bytes. -/
def payloadRef (p : List Byte) : BagRef := refOf (p.getD 0 0#8) (p.getD 1 0#8)

/-- The fields an OFFER carries (section 7.2). -/
structure Offered where
  ref : BagRef
  tag : Option Tag
  stray : Option StrayCause
  lengthDoubt : Bool
  relabelled : Bool
  laps : Nat
  length : Option Nat
  refusals : List RefusalEntry
  deriving DecidableEq, Repr

/-- The tag an OFFER carries; `none` where tag byte and cabin are malformed (R137). -/
def offeredTag (cabin tagByte : Nat) : Option (Option Tag) :=
  let letter := tagByte % 8
  match tagByte / 8 with
  | 0 => if cabin = 0 ∧ letter = 0 then some none else none
  | 1 => if validCabin cabin then some (some { cabin, letter, source := .read }) else none
  | 2 => if validCabin cabin then some (some { cabin, letter, source := .coded }) else none
  | _ => none

/-- The stray-bound mark and cause an OFFER carries; `none` where they are malformed (R137). -/
def offeredStray (flags : Nat) : Option (Option StrayCause) :=
  let code := flags / 8 % 16
  if flags % 2 = 1 then
    match causeOfCode code with
    | some c => some (some c)
    | none => none
  else if code = 0 then some none else none

/-- The length an OFFER carries; `none` where it is malformed (R137). -/
def offeredLength (flags n : Nat) : Option (Option Nat) :=
  if flags / 128 = 1 then some (some n) else if n = 0 then some none else none

/-- The refusals that `count` and the eight bytes carry; `none` where they are malformed (R137). -/
def offeredRefusals : Nat → List Byte → Option (List RefusalEntry)
  | 0, rest => if rest.all (· == 0#8) then some [] else none
  | n + 1, st :: c :: rest =>
    match refusalOfCode c.toNat, offeredRefusals n rest with
    | some cause, some l =>
      if validStation st.toNat then some ({ station := st.toNat, cause } :: l) else none
    | _, _ => none
  | _ + 1, _ => none

/-- The fields of an OFFER payload, or `none` where it is malformed (R137). -/
def decodeOffer (p : List Byte) : Option Offered :=
  let ref := payloadRef p
  let flags := payloadByte p 5
  match offeredTag (payloadByte p 2 * 256 + payloadByte p 3) (payloadByte p 4),
      offeredStray flags,
      offeredLength flags (payloadByte p 7 * 256 + payloadByte p 8),
      offeredRefusals (payloadByte p 9) (p.drop 10) with
  | some tag, some stray, some length, some refusals =>
    if validStation ref.station = true ∧ payloadByte p 6 ≤ 7 then
      some
        { ref, tag, stray, lengthDoubt := decide (flags / 2 % 2 = 1),
          relabelled := decide (flags / 4 % 2 = 1), laps := payloadByte p 6, length, refusals }
    else none
  | _, _, _, _ => none

/-- The fields a record carries from node to node (section 2.1). -/
def carried (r : Record) : Offered :=
  { ref := r.ref, tag := r.tag, stray := r.stray, lengthDoubt := r.lengthDoubt,
    relabelled := r.relabelled, laps := r.laps, length := r.length, refusals := r.refusals }

/-- The five-byte entries of a CABIN payload, in order (R45). -/
def cabinEntriesOf : List Byte → List CabinEntry
  | c1 :: c0 :: k :: t1 :: t0 :: rest =>
    { cabin := ofU16 c1 c0, kind := k.toNat, target := ofU16 t1 t0 } :: cabinEntriesOf rest
  | _ => []

/-- The outlets a mask names (R171): bit k names outlet k. -/
def maskBits (mask : Byte) : Quad Bool :=
  ⟨mask.getLsbD 0, mask.getLsbD 1, mask.getLsbD 2, mask.getLsbD 3⟩

/-- A reader result (R31). -/
inductive ReaderResult where
  | read (cabin letter : Nat)
  | noread
  deriving DecidableEq, Repr

/-- The result of six bytes, or `none` where the message is damaged (R31). -/
def readerResult (bytes : List Byte) : Option ReaderResult :=
  match bytes with
  | [marker, result, c1, c0, letter, check] =>
    if byteSum [marker, result, c1, c0, letter, check] ≠ 0#8 ∨ marker ≠ Config.readerMarker then none
    else if result = 2#8 then some .noread
    else if result = 1#8 ∧ validCabin (ofU16 c1 c0) = true ∧ letter.toNat ≤ 7 then
      some (.read (ofU16 c1 c0) letter.toNat)
    else none
  | _ => none

end Sys2Proof.Machine
end

