-- ==== Sys2Proof/Machine/Ops.lean ====
section
/-! DEFINITION. The shared operations: positions and distances, finding and changing records, queues
and notices, the transmit arbiter, crowding and the merge permit, resolution requests and the
resolution, and a record's leaving the node. -/

namespace Sys2Proof.Machine

/-- What a command answers. -/
abbrev Result := Host.Outcome State Fault Refusal

/-! ## Changing one block and nothing else -/

/-- Change what the Position Unit owns. -/
def State.mapPosition (f : PositionUnit → PositionUnit) (s : State) : State :=
  { s with position := f s.position }

/-- Change what the Track Unit owns. -/
def State.mapTrack (f : TrackUnit → TrackUnit) (s : State) : State :=
  { s with track := f s.track }

/-- Change what the Resolution Unit owns. -/
def State.mapResolution (f : ResolutionUnit → ResolutionUnit) (s : State) : State :=
  { s with resolution := f s.resolution }

/-- Change one outlet. -/
def State.mapOutlet (k : OutletNo) (f : Outlet → Outlet) (s : State) : State :=
  { s with outlets := s.outlets.set k (f (s.outlets.get k)) }

/-- Change all four outlets. -/
def State.mapOutlets (f : Outlet → Outlet) (s : State) : State :=
  { s with outlets := s.outlets.map f }

/-- Change what the Line Interface owns. -/
def State.mapLine (f : LineInterface → LineInterface) (s : State) : State :=
  { s with line := f s.line }

/-- Change what the Handoff Unit owns. -/
def State.mapHandoff (f : HandoffUnit → HandoffUnit) (s : State) : State :=
  { s with handoff := f s.handoff }

/-- Change what the Induction Unit owns. -/
def State.mapInduction (f : InductionUnit → InductionUnit) (s : State) : State :=
  { s with induction := f s.induction }

/-- Change what the Start Unit owns. -/
def State.mapStart (f : StartUnit → StartUnit) (s : State) : State :=
  { s with start := f s.start }

/-! ## Node state -/

/-- The image values in use. -/
def State.image (s : State) : NodeConfig := s.start.image

/-- The reset input is not asserted: inputs and timers are followed (R175). -/
def powered (s : State) : Bool := !s.start.resetHeld

/-- The node is in RUN. -/
def inRun (s : State) : Bool := decide (s.start.node = .run)

/-- The node is in FAULT. -/
def inFault (s : State) : Bool := decide (s.start.node = .fault)

/-- The node is in RUN with segment clear not held: its eyes are followed (R24, R27). -/
def eyesFollowed (s : State) : Bool := inRun s && !s.start.clearHeld

/-- The image values of outlet `k`. -/
def outletImage (s : State) (k : OutletNo) : OutletConfig := s.image.outlets.get k

/-! ## Positions (section 1.2) -/

/-- The distance from `a` to `b`: `b - a` modulo 16,777,216 read as a signed number (R3). -/
def dist (a b : Position) : Int := (b - a).toInt

/-- The position `n` counts after `p`, on the wrapping counter. -/
def ahead (p : Position) (n : Nat) : Position := p + BitVec.ofNat 24 n

/-- The position `n` counts before `p`, on the wrapping counter. -/
def behind (p : Position) (n : Nat) : Position := p - BitVec.ofNat 24 n

/-- A position has been reached when the distance from it to the current position is zero or more
(R4). -/
def reached (s : State) (x : Position) : Bool := decide (0 ≤ dist x s.position.counter)

/-! ## Records and the collections that hold them -/

/-- The record of a bag ref in one collection. -/
def findIn (l : List Record) (ref : BagRef) : Option Record := l.find? fun r => decide (r.ref = ref)

/-- The record of a bag ref in the track table. -/
def inTable (s : State) (ref : BagRef) : Option Record := findIn s.track.table ref

/-- The record of a bag ref in the pending-offer queue. -/
def inPendingOffers (s : State) (ref : BagRef) : Option Record := findIn s.handoff.pendingOffers ref

/-- The record of a bag ref in the expected list. -/
def inExpected (s : State) (ref : BagRef) : Option Record := findIn s.handoff.expected ref

/-- The record of a bag ref, wherever the node holds it (R19). -/
def heldRecord (s : State) (ref : BagRef) : Option Record :=
  match inTable s ref with
  | some r => some r
  | none =>
    match inPendingOffers s ref with
    | some r => some r
    | none => inExpected s ref

/-- Every record the node holds: track table, pending-offer queue, expected list. -/
def heldRecords (s : State) : List Record :=
  s.track.table ++ s.handoff.pendingOffers ++ s.handoff.expected

/-- Change the record of a bag ref in one collection. -/
def updateIn (l : List Record) (ref : BagRef) (f : Record → Record) : List Record :=
  l.map fun r => if r.ref = ref then f r else r

/-- Change the record of a bag ref wherever it stands (R21). -/
def updateRecord (ref : BagRef) (f : Record → Record) (s : State) : State :=
  { s with
    track := { s.track with table := updateIn s.track.table ref f }
    handoff :=
      { s.handoff with
        pendingOffers := updateIn s.handoff.pendingOffers ref f
        expected := updateIn s.handoff.expected ref f } }

/-- Occupancy: the number of records in the track table (R22). -/
def occupancy (s : State) : Nat := s.track.table.length

/-- A record's tag status is NONE. -/
def untagged (r : Record) : Bool := r.tag.isNone

/-- The outlet that a verdict names (Chapter 4). -/
def verdictOutlet : Verdict → Option OutletNo
  | .divert k => some k
  | .stray k => some k
  | .unresolved => none
  | .pass => none

/-- A refusal's entry goes at the end of the list, which keeps the four most recent (R18). -/
def addRefusal (station : Nat) (cause : RefusalCause) (r : Record) : Record :=
  let l := r.refusals ++ [RefusalEntry.mk station cause]
  { r with refusals := l.drop (l.length - Config.refusalCapacity) }

/-! ## The queues of the Line Interface -/

/-- An answer handed to the answer queue, or dropped by a full one (R120). In FAULT the counter does
not rise (R182). -/
def queueAnswer (f : OutFrame) (s : State) : State :=
  if s.line.answers.length < Config.answerCapacity then
    s.mapLine fun u => { u with answers := u.answers ++ [f] }
  else setQueueDrop (bumpOutsideFault .droppedNotices s)

/-- A notice handed to the notice queue, or dropped by a full one (R121). -/
def queueNotice (f : OutFrame) (s : State) : State :=
  if s.line.notices.length < Config.noticeCapacity then
    s.mapLine fun u => { u with notices := u.notices ++ [f] }
  else setQueueDrop (bumpOutsideFault .droppedNotices s)

/-- A MISSING notice for a record (R145). -/
def missingNotice (r : Record) : OutFrame :=
  { dest := Config.broadcast, kind := .missing, payload := missingPayload r }

/-- A STRAY notice for a record, to the coding station (R100). -/
def strayNotice (s : State) (r : Record) : OutFrame :=
  { dest := s.image.coding, kind := .stray, payload := strayPayload r }

/-- A CROWD notice (R159). -/
def crowdNotice (on : Bool) (occ : Nat) : OutFrame :=
  { dest := Config.broadcast, kind := .crowd, payload := crowdPayload on occ }

/-! ## The transmit arbiter (section 6.5) -/

/-- The turn after a source's turn: offer, notices, STATUS, offer (R123). -/
def turnAfter : FrameSource → Turn → Turn
  | .offer, _ => .notices
  | .notices, _ => .status
  | .status, _ => .offer
  | .answer, t => t

/-- The three rotating sources from the one whose turn it is (R122). -/
def sourcesFrom : Turn → List FrameSource
  | .offer => [.offer, .notices, .status]
  | .notices => [.notices, .status, .offer]
  | .status => [.status, .offer, .notices]

/-- The outbound offer's stage is changed. -/
def setStage (stage : OfferStage) (s : State) : State :=
  s.mapHandoff fun u => { u with outbound := u.outbound.map fun o => { o with stage } }

/-- The stage of the outbound offer, if a record holds it. -/
def offerStage (s : State) : Option OfferStage := s.handoff.outbound.map (·.stage)

/-- The due STATUS takes a state (R164). -/
def setStatusDue (d : DueStatus) (s : State) : State :=
  s.mapSupervision fun u => { u with statusDue := d }

/-- The transmitter takes a state. -/
def setTransmitter (t : Transmitter) (s : State) : State :=
  s.mapLine fun u => { u with transmitter := t }

/-- The OFFER frame of the outstanding offer, built from its record as it stands (R129, R136). -/
def offerFrame (s : State) : Option OutFrame :=
  match s.handoff.outbound with
  | some o =>
    match o.stage, inTable s o.ref with
    | .due, some r => some { dest := s.image.downstream, kind := .offer, payload := offerPayload r }
    | _, _ => none
  | none => none

/-- The frame a source has for the transmitter (R122); an OFFER and a STATUS are built now. -/
def sourceFrame (s : State) : FrameSource → Option OutFrame
  | .answer => s.line.answers.head?
  | .offer => offerFrame s
  | .notices => s.line.notices.head?
  | .status =>
    if s.supervision.statusDue = .due then
      some { dest := Config.broadcast, kind := .status, payload := statusPayload s }
    else none

/-- What the hand-over of a source's frame does at the source (R129, R164): a queued frame keeps its
place at the head of its queue until it has been sent. -/
def markTaken (src : FrameSource) (s : State) : State :=
  match src with
  | .offer => setStage .onLine s
  | .status => setStatusDue .held s
  | .answer => s
  | .notices => s

/-- What taking a frame back does at its source (R123). -/
def markReturned (src : FrameSource) (s : State) : State :=
  match src with
  | .offer => setStage .due s
  | .status => setStatusDue .due s
  | .answer => s
  | .notices => s

/-- The gap of a held frame in bit times (R115). -/
def frameGap (h : HeldFrame) : Nat := if h.source = .answer then 6 else 24

/-- A frame enters WAIT-GAP, or stands in it: where the idle count is at its gap or above, the
transmitter enables the driver and begins to send, and its start bit sets the count to 0 (R115). -/
def enterWaitGap (h : HeldFrame) (s : State) : State :=
  s.mapLine fun u =>
    if frameGap h ≤ u.idleCount then { u with transmitter := .sending h, idleCount := 0 }
    else { u with transmitter := .waitGap h }

/-- A frame is handed to the transmitter, which waits for its gap (R122, R115). -/
def holdFrame (src : FrameSource) (f : OutFrame) (s : State) : State :=
  enterWaitGap { source := src, frame := f, collisions := 0 } (markTaken src s)

/-- The IDLE transmitter is handed the first frame: an answer, else the rotating sources in turn
(R122). -/
def handOver (s : State) : State :=
  match (FrameSource.answer :: sourcesFrom s.line.turn).find? (fun x => (sourceFrame s x).isSome) with
  | none => s
  | some src =>
    match sourceFrame s src with
    | none => s
    | some f => holdFrame src f s

/-- An answer takes the place of a frame of a rotating source that waits for its gap and has not yet
collided (R123). -/
def takeBack (s : State) : State :=
  match s.line.transmitter with
  | .waitGap h =>
    if h.source ≠ .answer ∧ h.collisions = 0 ∧ s.line.answers ≠ [] then
      setTransmitter .idle (markReturned h.source s)
    else s
  | _ => s

/-- The arbiter's work at the end of an event that may give a source a frame or the transmitter its
freedom (R122, R123). A node that takes no part in the line sends nothing (R182). -/
def arbitrate (s : State) : State :=
  if s.line.receiver = .off then s
  else
    let t := takeBack s
    match t.line.transmitter with
    | .idle => handOver t
    | _ => t

/-- The frame a transmitter state holds. -/
def heldFrame : Transmitter → Option HeldFrame
  | .idle => none
  | .waitGap h => some h
  | .sending h => some h
  | .backoff h _ _ => some h

/-- Withdraw the OFFER frame held in WAIT-GAP or BACKOFF (R119); the turn passes on (R123). That it
passes at a segment clear too, where R125's table has the turn kept, is a DESIGN CHOICE (unsafe, log
entry 19). -/
def withdrawOffer (s : State) : State :=
  let t := s.mapLine fun u => { u with transmitter := .idle, turn := .notices }
  match s.line.transmitter with
  | .waitGap h => if h.source = .offer then t else s
  | .backoff h _ _ => if h.source = .offer then t else s
  | _ => s

/-! ## The outbound offer (section 7.1) -/

/-- The front-most EXITING record that has not yet held the outbound offer (R128). -/
def nextToOffer (s : State) : Option Record :=
  s.track.table.find? fun r => decide (r.state = .exiting) && !r.heldOffer

/-- When no record holds the outbound offer, the next record takes it with its first attempt due
(R128). -/
def takeUpOffer (s : State) : State :=
  match s.handoff.outbound, nextToOffer s with
  | none, some r =>
    (updateRecord r.ref (fun r => { r with heldOffer := true }) s).mapHandoff fun u =>
      { u with outbound := some { ref := r.ref, stage := .due, attempts := 0 } }
  | _, _ => s

/-- Is the frame that the transmitter holds one of the outbound offer? It is while the offer is ON LINE;
an offer spent while its frame was being sent is told by the bag ref that the frame carries (log entry
20). -/
def holdsFrameOf (o : Outbound) (s : State) : Bool :=
  match o.stage with
  | .onLine => true
  | .spent =>
    decide ((heldFrame s.line.transmitter).map (fun h => payloadRef h.frame.payload) = some o.ref)
  | .due => false
  | .listening _ => false
  | .resting _ => false

/-- The offer of a record ends, or is spent: its frame in WAIT-GAP or BACKOFF is withdrawn, and one
being sent goes on to its end, which changes nothing (R119, R131, R132, R134). -/
def endOfferFrame (s : State) : State :=
  match s.handoff.outbound with
  | some o => if holdsFrameOf o s then withdrawOffer s else s
  | none => s

/-- The outbound offer ends if this record holds it (R131, R132, R134). -/
def endOfferOf (ref : BagRef) (s : State) : State :=
  match s.handoff.outbound with
  | some o =>
    if o.ref = ref then (endOfferFrame s).mapHandoff fun u => { u with outbound := none } else s
  | none => s

/-- After a WAIT, an expired reply window or a line abort, the offer rests or is spent as its attempt
count decides (R130). -/
def afterAttempt (s : State) : State :=
  match s.handoff.outbound with
  | some o => setStage (if o.attempts < s.image.attemptLimit then .resting 0 else .spent) s
  | none => s

/-- The attempt count rises by one (R129). -/
def countAttempt (s : State) : State :=
  s.mapHandoff fun u =>
    { u with outbound := u.outbound.map fun o => { o with attempts := o.attempts + 1 } }

/-! ## Crowding (section 8.5) -/

/-- The node's own crowded state changes: its own crowd view entry follows it (R160), and a CROWD
notice is made (R159). -/
def setCrowded (on : Bool) (s : State) : State :=
  let t := s.mapSupervision fun u => { u with crowded := on }
  let t := t.mapInduction fun u =>
    { u with
      crowdView := u.crowdView.map fun e =>
        if e.station = s.start.station then { e with crowded := on } else e }
  queueNotice (crowdNotice on (occupancy s)) t

/-- Occupancy has risen (R158). -/
def occupancyRose (s : State) : State :=
  if s.supervision.crowded = false ∧ s.image.highWater ≤ occupancy s then setCrowded true s else s

/-- Occupancy has fallen (R158). -/
def occupancyFell (s : State) : State :=
  if s.supervision.crowded = true ∧ occupancy s ≤ s.image.lowWater then setCrowded false s else s

/-! ## The merge zone and the merge permit (section 8.2) -/

/-- The minimum gap of a band. -/
def minGap (c : NodeConfig) : Band → Nat
  | .slow => c.gapSlow
  | .normal => c.gapNormal
  | .fast => c.gapFast

/-- A record's lead travel (R150). -/
def leadTravel (s : State) (r : Record) : Int :=
  match r.lead with
  | some p => dist p s.position.counter
  | none => 0

/-- A record's trail travel, 0 while its trail position is absent (R150). -/
def trailTravel (s : State) (r : Record) : Int :=
  match r.trail with
  | some p => dist p s.position.counter
  | none => 0

/-- Does a record occupy part of the merge zone (R150)? -/
def inMergeZone (s : State) (r : Record) : Bool :=
  let c := s.image
  let g : Int := minGap c s.position.band
  decide ((c.mergeDistance : Int) - g - c.mergeWindow ≤ leadTravel s r
    ∧ trailTravel s r ≤ (c.mergeDistance : Int) + g)

/-- The conditions of the merge permit (R151). -/
def permitConditions (s : State) : Bool :=
  s.image.induction && inRun s && !s.start.clearHeld && !s.position.stopped
    && !s.induction.crowdView.any (·.crowded)
    && decide (occupancy s < Config.tableCapacity)
    && !s.track.table.any (inMergeZone s)

/-- The permit takes the value the conditions give (R151). -/
def decidePermit (s : State) : State :=
  s.mapInduction fun u => { u with permit := permitConditions s }

/-! ## Resolution (Chapter 3) -/

/-- The outlet that the window lookup finds for a cabin (R42). -/
def windowLookup (ws : List Window) (c : Nat) : Option OutletNo :=
  match ws.find? (fun w => decide (w.base ≤ w.limit ∧ w.base ≤ c ∧ c ≤ w.limit)) with
  | none => none
  | some w =>
    match w.carve with
    | none => some w.outlet
    | some cv =>
      if cv.low ≤ c % 100 ∧ c % 100 ≤ cv.high then some cv.outlet else some w.outlet

/-- The verdict of a window lookup (R43). -/
def lookupVerdict (s : State) (c : Nat) : Verdict :=
  match windowLookup s.image.windows c with
  | none => .pass
  | some k => if (outletImage s k).role = .deck then .divert k else .pass

/-- The verdict of a stray-bound record: the lowest-numbered STRAY outlet, or PASS (R53). -/
def strayVerdict (s : State) : Verdict :=
  match ([0, 1, 2, 3] : List OutletNo).find? (fun k => decide ((outletImage s k).role = .stray)) with
  | none => .pass
  | some k => .stray k

/-- The exception table's entry for a cabin. -/
def exceptionFor (s : State) (c : Nat) : Option ExceptionEntry :=
  s.resolution.exceptions.find? fun e => decide (e.cabin = c)

/-- The result of a resolution of a record: its verdict, and the mark it sets (R53 to R55). -/
def resolve (s : State) (r : Record) : Verdict × Option StrayCause :=
  if r.stray.isSome then (strayVerdict s, none)
  else
    match r.tag with
    | none => (strayVerdict s, some .noread)
    | some t =>
      match exceptionFor s t.cabin with
      | none => (lookupVerdict s t.cabin, none)
      | some e =>
        match e.kind with
        | .cancelled => (strayVerdict s, some .cancelled)
        | .hold => (strayVerdict s, some .hold)
        | .redirect target => (lookupVerdict s target, none)

/-- When the unit is idle it takes the request at the head of the queue, and the resolution starts on
the record, windows and table as they stand (R52). -/
def startResolution (s : State) : State :=
  match s.resolution.service, s.resolution.requests with
  | none, ref :: rest =>
    s.mapResolution fun u =>
      { u with
        requests := rest
        service :=
          (heldRecord s ref).map fun r =>
            { owner := some ref, verdict := (resolve s r).1, mark := (resolve s r).2 } }
  | _, _ => s

/-- A resolution request for a record. In the expected list it makes the record's resolution due and
its verdict UNRESOLVED (R59). Otherwise it merges with a waiting one or enters at the tail (R58), and
an idle unit takes it at once (R52). -/
def raiseRequest (ref : BagRef) (s : State) : State :=
  if (inExpected s ref).isSome then
    updateRecord ref (fun r => { r with resolutionDue := true, verdict := .unresolved }) s
  else if ref ∈ s.resolution.requests then s
  else startResolution (s.mapResolution fun u => { u with requests := u.requests ++ [ref] })

/-- Requests for several records, in order. -/
def raiseRequests (refs : List BagRef) (s : State) : State :=
  refs.foldl (fun t ref => raiseRequest ref t) s

/-- Record states whose newly set mark raises a resolution request (R17). -/
def markRaisesRequest : RecordState → Bool
  | .pending => true
  | .expected => true
  | .onBelt => true
  | .armed => false
  | .diverting => false
  | .exiting => false

/-- A record is marked stray-bound with a cause (R17): one already stray-bound keeps the cause it has. -/
def markStray (cause : StrayCause) (ref : BagRef) (s : State) : State :=
  match heldRecord s ref with
  | none => s
  | some r =>
    if r.stray.isSome then s
    else
      let t := updateRecord ref (fun r => { r with stray := some cause }) s
      if markRaisesRequest r.state then raiseRequest ref t else t

/-- The lap check (R97): a record at or above the lap limit and not stray-bound is marked LAPS. -/
def lapCheck (ref : BagRef) (s : State) : State :=
  match heldRecord s ref with
  | none => s
  | some r => if s.image.lapLimit ≤ r.laps then markStray .laps ref s else s

/-- Do two tags carry the same cabin and the same letter? -/
def sameTag (a b : Option Tag) : Bool :=
  match a, b with
  | some x, some y => decide (x.cabin = y.cabin ∧ x.letter = y.letter)
  | _, _ => false

/-- The other records of track table and expected list with the same cabin and letter (R34). -/
def duplicatesOf (s : State) (r : Record) : List BagRef :=
  ((s.track.table ++ s.handoff.expected).filter
    fun x => decide (x.ref ≠ r.ref) && sameTag x.tag r.tag).map (·.ref)

/-- The duplicate check of a record that holds a tag (R34). -/
def duplicateCheck (ref : BagRef) (s : State) : State :=
  match heldRecord s ref with
  | none => s
  | some r =>
    match duplicatesOf s r with
    | [] => s
    | found => bump .duplicates ((ref :: found).foldl (fun t x => markStray .duplicate x t) s)

/-! ## Leaving the node (R20, R21, R60) -/

/-- Forget a reference to a record that has left. -/
def forget (ref : BagRef) (o : Option BagRef) : Option BagRef := if o = some ref then none else o

/-- A record leaves the node: it is taken out of the collection that holds it, its waits and timers
end with it, a waiting request is taken out, the result of a resolution in service will be discarded,
and the outbound offer ends if the record held it. -/
def leave (ref : BagRef) (s : State) : State :=
  let s := endOfferOf ref s
  { s with
    track :=
      { s.track with
        table := s.track.table.filter fun r => decide (r.ref ≠ ref)
        openEntry := forget ref s.track.openEntry
        openMerge := forget ref s.track.openMerge }
    handoff :=
      { s.handoff with
        pendingOffers := s.handoff.pendingOffers.filter fun r => decide (r.ref ≠ ref)
        expected := s.handoff.expected.filter fun r => decide (r.ref ≠ ref) }
    resolution :=
      { s.resolution with
        requests := s.resolution.requests.filter fun x => decide (x ≠ ref)
        service := s.resolution.service.map fun v => { v with owner := forget ref v.owner } }
    outlets :=
      s.outlets.map fun o => { o with diverting := o.diverting.filter fun x => decide (x ≠ ref) } }

/-- A record leaves the track table: occupancy falls (R22, R158), and where the record held the
outbound offer it passes to the next (R128). -/
def leaveTable (ref : BagRef) (s : State) : State := takeUpOffer (occupancyFell (leave ref s))

/-! ## The expected list's deadline (R144, R145) -/

/-- The head of the expected list has reached its deadline. -/
def deadlineReached (s : State) : Option Record :=
  match s.handoff.expected with
  | r :: _ =>
    match r.deadline with
    | some d => if reached s d then some r else none
    | none => none
  | [] => none

/-- The head leaves as MISSING, with its notice (R145). -/
def takeMissing (r : Record) (s : State) : State :=
  queueNotice (missingNotice r) (bump .missing (leave r.ref s))

/-- Each record that becomes the head with its deadline already reached leaves at once (R144); at most
`n` of them. -/
def settleDeadlines : Nat → State → State
  | 0, s => s
  | n + 1, s =>
    match deadlineReached s with
    | some r => settleDeadlines n (takeMissing r s)
    | none => s

/-! ## The segment exit and the offer point (R126, R127) -/

/-- The segment exit of a record: its trail position plus the segment length (R127). -/
def exitReached (s : State) (r : Record) : Bool :=
  match r.trail with
  | some p => decide (r.state = .exiting) && reached s (ahead p s.image.segmentLength)
  | none => false

/-- An EXITING record whose exit is reached leaves as ABANDONED (R127). -/
def takeExit (ref : BagRef) (s : State) : State := bump .abandoned (leaveTable ref s)

/-- The exit wait is taken at once if the exit has already been reached (R127). -/
def settleExit (ref : BagRef) (s : State) : State :=
  match inTable s ref with
  | some r => if exitReached s r then takeExit ref s else s
  | none => s

/-- A record becomes EXITING: its exit wait is set, and it may take the outbound offer (R126, R127,
R128). -/
def becomeExiting (ref : BagRef) (s : State) : State :=
  takeUpOffer (settleExit ref (updateRecord ref (fun r => { r with state := .exiting }) s))

/-- The offer point of a record has been reached and its wait is not yet taken (R126). -/
def offerPointReached (s : State) (r : Record) : Bool :=
  match r.lead with
  | some p =>
    !r.pastOfferPoint && decide (r.state = .onBelt ∨ r.state = .diverting)
      && reached s (ahead p s.image.offerDistance)
  | none => false

/-- The offer point is taken: an ON-BELT record becomes EXITING, a DIVERTING one is marked (R126). -/
def takeOfferPoint (r : Record) (s : State) : State :=
  let t := updateRecord r.ref (fun r => { r with pastOfferPoint := true }) s
  if r.state = .onBelt then becomeExiting r.ref t else t

/-- The offer-point wait is taken at once if the position has already been reached (R4). -/
def settleOfferPoint (ref : BagRef) (s : State) : State :=
  match inTable s ref with
  | some r => if offerPointReached s r then takeOfferPoint r s else s
  | none => s

/-! ## Fire and arming (sections 4.3 and 4.5) -/

/-- The cause of a fire refusal, in the order of R75. -/
def fireRefusal (s : State) (k : OutletNo) : RefusalCause :=
  if isFull s k then .full
  else if isHeld s k then .held
  else if isNoCart s k then .noCart
  else if isFaulted s k then .faulted
  else .busy

/-- A refused record returns to ON-BELT with verdict PASS, fixed, without a fire position, with a
refusal entry, and the refusals counter rises (R68, R75, R82). -/
def refuse (cause : RefusalCause) (ref : BagRef) (s : State) : State :=
  bump .refusals <|
    updateRecord ref
      (fun r =>
        addRefusal s.start.station cause
          { r with
            state := .onBelt, verdict := .pass, verdictFixed := true, firePosition := none,
            confirmTimer := none })
      s

/-- The fire event of a record at outlet `k` (R74, R75). -/
def takeFire (k : OutletNo) (ref : BagRef) (s : State) : State :=
  if isOpen s k = true ∧ (s.outlets.get k).pusher = .home then
    (updateRecord ref (fun r => { r with state := .diverting, confirmTimer := some 0 }) s).mapOutlet
      k fun o =>
        { o with
          pusher := .extended, dwellTimer := some 0, diverting := o.diverting ++ [ref] }
  else refuse (fireRefusal s k) ref s

/-- The lead time of an outlet in a band (R63). -/
def leadTime (o : OutletConfig) : Band → Nat
  | .slow => o.leadSlow
  | .normal => o.leadNormal
  | .fast => o.leadFast

/-- The pusher lead: t × v ÷ 80 rounded up, and at most the arming distance (R71). -/
def pusherLead (t v armDistance : Nat) : Nat := min ((t * v + 79) / 80) armDistance

/-- A record's fire position (R72). -/
def firePositionOf (lead : Position) (d length pusher : Nat) : Position :=
  behind (ahead lead (d + length / 2)) pusher

/-- The record before a record in the table, if any. -/
def precedingIn : List Record → BagRef → Option Record
  | a :: b :: rest, ref => if b.ref = ref then some a else precedingIn (b :: rest) ref
  | _, _ => none

/-- The record after a record in the table, if any. -/
def followingIn : List Record → BagRef → Option Record
  | a :: b :: rest, ref => if a.ref = ref then some b else followingIn (b :: rest) ref
  | _, _ => none

/-- The gap ahead of a bag is at least the minimum gap (R70). -/
def gapAheadOk (s : State) (ref : BagRef) (lead : Position) (g : Nat) : Bool :=
  match precedingIn s.track.table ref with
  | none => true
  | some p =>
    match p.trail with
    | none => false
    | some t => decide ((g : Int) ≤ dist t lead)

/-- The gap behind a bag is at least the minimum gap (R70). -/
def gapBehindOk (s : State) (ref : BagRef) (trail : Position) (g : Nat) : Bool :=
  match followingIn s.track.table ref with
  | none => decide ((g : Int) ≤ dist trail s.position.counter)
  | some f =>
    match f.lead with
    | none => false
    | some l => decide ((g : Int) ≤ dist trail l)

/-- What arming decides (R69 to R72). -/
inductive ArmingResult where
  | oversize
  | gap
  /-- Armed, with the fire position. -/
  | armed (fire : Position)
  /-- The fire position lies behind: PASS without a refusal. -/
  | tooLate
  deriving DecidableEq, Repr

/-- The four steps of arming for a record at outlet `k` (R69 to R72). -/
def armingResult (s : State) (k : OutletNo) (r : Record) : ArmingResult :=
  let o := outletImage s k
  match r.lead, r.trail with
  | some lead, some trail =>
    let len := r.length.getD 0
    if o.maxLength < len then .oversize
    else if gapAheadOk s r.ref lead (minGap s.image s.position.band) = false
        ∨ gapBehindOk s r.ref trail (minGap s.image s.position.band) = false then .gap
    else
      let pl := pusherLead (leadTime o s.position.band) s.position.speed s.image.armDistance
      let f := firePositionOf lead o.distance len pl
      if 0 < dist f s.position.counter then .tooLate else .armed f
  | _, _ => .oversize

/-- The arming event of a record at outlet `k` (R68 to R72): its verdict becomes fixed whatever the
arming decides (R57). -/
def takeArming (k : OutletNo) (r : Record) (s : State) : State :=
  match armingResult s k r with
  | .oversize => markStray .oversize r.ref (refuse .oversize r.ref s)
  | .gap => refuse .gap r.ref s
  | .tooLate => updateRecord r.ref (fun r => { r with verdict := .pass, verdictFixed := true }) s
  | .armed f =>
    let t :=
      updateRecord r.ref
        (fun r => { r with state := .armed, verdictFixed := true, firePosition := some f }) s
    if reached s f then takeFire k r.ref t else t

/-- The outlet at which a record waits to arm, once its arming position has been reached (R67, R68):
ON-BELT, verdict naming an outlet and not fixed, and not the open record at the merge eye. -/
def armingReached (s : State) (r : Record) : Option OutletNo :=
  match verdictOutlet r.verdict, r.lead with
  | some k, some p =>
    if r.state = .onBelt ∧ r.verdictFixed = false ∧ s.track.openMerge ≠ some r.ref
        ∧ reached s (behind (ahead p (outletImage s k).distance) s.image.armDistance) = true then
      some k
    else none
  | _, _ => none

/-- The arming wait is taken at once if its position has already been reached (R68). -/
def settleArming (ref : BagRef) (s : State) : State :=
  match inTable s ref with
  | some r =>
    match armingReached s r with
    | some k => takeArming k r s
    | none => s
  | none => s

/-! ## Read windows (section 2.4) -/

/-- A record's read window opens (R32). -/
def openWindow (ref : BagRef) (s : State) : State :=
  updateRecord ref (fun r => { r with window := .open }) s

/-- A NOREAD result or a close without result: on a record whose tag status is NONE it marks the
record NOREAD (R35). -/
def noreadOn (r : Record) (s : State) : State :=
  if untagged r then markStray .noread r.ref s else s

/-- A read window closes without a result (R32, R35). -/
def closeWindow (r : Record) (s : State) : State :=
  noreadOn r (updateRecord r.ref (fun r => { r with window := .closed }) s)

/-- The position at which a read window opens has been reached. -/
def windowOpenReached (s : State) (r : Record) : Bool :=
  match r.lead with
  | some p => s.image.readerFitted && reached s (ahead p s.image.readerDistance)
  | none => false

/-- The position at which a read window closes is set and has been reached. -/
def windowCloseReached (s : State) (r : Record) : Bool :=
  match r.trail with
  | some p =>
    s.image.readerFitted && reached s (ahead p (s.image.readerDistance + s.image.readerLatency))
  | none => false

/-- The closing position, set at the trailing edge, is taken at once if already reached; a window not
yet open then opens and closes together (R32). -/
def settleWindow (ref : BagRef) (s : State) : State :=
  match inTable s ref with
  | some r => if r.window ≠ .closed ∧ windowCloseReached s r = true then closeWindow r s else s
  | none => s

end Sys2Proof.Machine
end

