-- ==== Sys2Proof/Machine/Arrivals.lean ====
section
/-! DEFINITION. Arrivals and trailing edges at the entry eye and the merge eye (section 2.3, Chapter 8). -/

namespace Sys2Proof.Machine

/-- Advancing the bag sequence: 2047 advances to 0 (R29). -/
def nextSeq (q : Nat) : Nat := (q + 1) % 2048

/-- Is a bag ref held in the track table, the expected list or the pending-offer queue? -/
def refHeld (s : State) (ref : BagRef) : Bool := (heldRecord s ref).isSome

/-- The sequence of the first candidate not held, among at most `n` candidates from `q` (R29). -/
def freeSeq (s : State) : Nat → Nat → Nat
  | 0, q => q
  | n + 1, q =>
    if refHeld s { station := s.start.station, seq := q } then freeSeq s n (nextSeq q) else q

/-- The bag ref drawn (R29): at most 60 records are held, so 61 candidates hold a free one. -/
def drawnRef (s : State) : BagRef :=
  { station := s.start.station, seq := freeSeq s 61 s.track.bagSeq }

/-- A record made at this node, its lead position given (R16). -/
def newRecord (ref : BagRef) (lead : Position) (tag : Option Tag) (stray : Option StrayCause) :
    Record :=
  { ref, tag, length := none, laps := 0, stray, lengthDoubt := false, relabelled := false,
    refusals := [], lead := some lead, trail := none, measuredHere := false,
    verdict := .unresolved, firePosition := none, window := .notOpen, state := .onBelt,
    verdictFixed := false, resolutionDue := false, ready := false, pastOfferPoint := false,
    heldOffer := false, deadline := none, discardTimer := none, confirmTimer := none }

/-- A record as it joins the track table by promotion (R24): its deadline or discard timer ends, and
its resolution is no longer due (R59). -/
def promoted (lead : Position) (r : Record) : Record :=
  { r with
    lead := some lead, trail := none, measuredHere := false, window := .notOpen, state := .onBelt,
    verdictFixed := false, resolutionDue := false, ready := false, pastOfferPoint := false,
    heldOffer := false, deadline := none, discardTimer := none, confirmTimer := none,
    firePosition := none }

/-- The loop head raises laps by one, stopping at 7 (R18, R96). -/
def raiseLaps (r : Record) : Record := { r with laps := min 7 (r.laps + 1) }

/-- Deadlines already reached when a record becomes the head are taken at once (R144). -/
def settleHead (s : State) : State := settleDeadlines s.handoff.expected.length s

/-- A record taken out of the expected list and the pending-offer queue. -/
def withoutInbound (ref : BagRef) (s : State) : State :=
  s.mapHandoff fun u =>
    { u with
      pendingOffers := u.pendingOffers.filter fun r => decide (r.ref ≠ ref)
      expected := u.expected.filter fun r => decide (r.ref ≠ ref) }

/-- A record joins the track table at the tail and is the open record at the entry eye (R22, R24). -/
def placeAtTail (r : Record) (s : State) : State :=
  s.mapTrack fun u => { u with table := u.table ++ [r], openEntry := some r.ref }

/-- The loop head's rise of laps and its lap check (R96, R98). -/
def lapAtLoopHead (ref : BagRef) (s : State) : State :=
  if s.image.loopHead then lapCheck ref (updateRecord ref raiseLaps s) else s

/-- Promotion (R24): a record of the expected list or the pending-offer queue joins the track table;
then its request, the loop head's laps (R96, R98), and the duplicate check of a tagged record from
the pending-offer queue (R34), in that order. A next head whose deadline is already reached leaves last
(R144), so that a CROWD notice of the arrival precedes its MISSING notice, as R121 has it. -/
def promote (fromPending : Bool) (r : Record) (s : State) : State :=
  let t := placeAtTail (promoted s.position.counter r) (withoutInbound r.ref s)
  let t := lapAtLoopHead r.ref (raiseRequest r.ref (occupancyRose t))
  let t := if fromPending then duplicateCheck r.ref t else t
  settleHead (settleOfferPoint r.ref (settleArming r.ref t))

/-- An anonymous arrival (R25). -/
def anonymousArrival (s : State) : State :=
  let ref := drawnRef s
  let t := s.mapTrack fun u => { u with bagSeq := nextSeq ref.seq }
  let t := placeAtTail (newRecord ref s.position.counter none (some .anon)) t
  settleOfferPoint ref (raiseRequest ref (occupancyRose (bump .anonymous t)))

/-- An arrival into a full track table (R26): a found record leaves as PURGED, and the bag travels
untracked. -/
def untrackedArrival (found : Option Record) (s : State) : State :=
  let t := match found with
    | some r => leave r.ref s
    | none => s
  settleHead (bump .untracked (t.mapTrack fun u => { u with openEntry := none }))

/-- An arrival at the entry eye (R24 to R26): the head of the expected list, else the oldest entry of
the pending-offer queue, else an anonymous bag. -/
def entryArrival (s : State) : State :=
  let full := decide (Config.tableCapacity ≤ occupancy s)
  match s.handoff.expected, s.handoff.pendingOffers with
  | r :: _, _ => if full then untrackedArrival (some r) s else promote false r s
  | [], r :: _ => if full then untrackedArrival (some r) s else promote true r s
  | [], [] => if full then untrackedArrival none s else anonymousArrival s

/-- ENTRY_EYE_ARRIVAL (R24): in RUN with segment clear not held; otherwise the edge is ignored. -/
def execEntryEyeArrival (s : State) : Result :=
  .next (if eyesFollowed s then arbitrate (decidePermit (entryArrival s)) else s)

/-! ## Trailing edges -/

/-- The length from lead to trail position (R27): the distance, at most 65,535. A negative distance
has no stated length (log entry 1). -/
def measuredLength (lead trail : Position) : Nat :=
  if dist lead trail < 0 then min 65535 (Config.unstatedLength lead trail)
  else min 65535 (dist lead trail).toNat

/-- Do a carried and a measured length disagree (R28)? -/
def lengthsDisagree (tolerance old new : Nat) : Bool :=
  decide (tolerance * old < ((old - new) + (new - old)) * 100)

/-- Does a record's trailing edge find a disagreement with its carried length (R28)? -/
def disagrees (s : State) (r : Record) (new : Nat) : Bool :=
  match r.length with
  | some old => !r.measuredHere && lengthsDisagree s.image.tolerance old new
  | none => false

/-- The trailing edge of a record (R27, R28). -/
def measure (ref : BagRef) (trail : Position) (s : State) : State :=
  match inTable s ref with
  | none => s
  | some r =>
    let len := measuredLength (r.lead.getD trail) trail
    let differs := disagrees s r len
    let t := updateRecord ref
      (fun r =>
        { r with
          trail := some trail, length := some len, measuredHere := true,
          lengthDoubt := r.lengthDoubt || differs })
      s
    if differs && r.lengthDoubt then markStray .doubt ref t else t

/-- ENTRY_EYE_TRAILING_EDGE (R27): read close and segment exit positions are set, and taken at once if
already reached. -/
def execEntryEyeTrailingEdge (s : State) : Result :=
  .next <|
    match s.track.openEntry with
    | some ref =>
      if eyesFollowed s then
        let t := (measure ref s.position.counter s).mapTrack fun u => { u with openEntry := none }
        arbitrate (decidePermit (settleExit ref (settleWindow ref t)))
      else s
    | none => s

/-! ## The merge eye -/

/-- A merged record is placed before the first record of less travel, else at the tail (R23). -/
def insertByTravel (s : State) (r : Record) : List Record → List Record
  | [] => [r]
  | x :: rest =>
    if leadTravel s x < leadTravel s r then r :: x :: rest else x :: insertByTravel s r rest

/-- The head code leaves the code queue (R157). -/
def dropCode (s : State) : State := s.mapInduction fun u => { u with codes := u.codes.tail }

/-- The tag and the mark of a merged record, by the coded-source level and the code queue (R153). -/
def mergedTag (coded : Bool) (s : State) : Option Tag × Option StrayCause :=
  if coded then
    match s.induction.codes with
    | c :: _ => (some { cabin := c.cabin, letter := c.letter, source := .coded }, none)
    | [] => (none, some .noread)
  else (none, none)

/-- A merged record (R152, R153): a new bag ref, a place by travel, its tag settled with the duplicate
check of a code, and one resolution request. -/
def mergedArrival (coded : Bool) (s : State) : State :=
  let ref := drawnRef s
  let tm := mergedTag coded s
  let r := newRecord ref (behind s.position.counter s.image.mergeDistance) tm.1 tm.2
  let t := s.mapTrack fun u =>
    { u with
      bagSeq := nextSeq ref.seq
      table := insertByTravel s r u.table
      openMerge := some ref }
  let t := occupancyRose (if coded then dropCode t else t)
  settleOfferPoint ref (raiseRequest ref (if tm.1.isSome then duplicateCheck ref t else t))

/-- A merge arrival into a full track table (R154). -/
def untrackedMerge (coded : Bool) (s : State) : State :=
  let t := bump .untracked (s.mapTrack fun u => { u with openMerge := none })
  if coded then dropCode t else t

/-- MERGE_ARRIVAL (R152 to R154), with the level of the coded-source input. The merge is forced where
the permit was withdrawn when the edge was taken, or the table full. -/
def execMergeArrival (coded : Bool) (s : State) : Result :=
  .next <|
    if eyesFollowed s = true ∧ s.image.induction = true then
      let full := decide (Config.tableCapacity ≤ occupancy s)
      let t := if full then untrackedMerge coded s else mergedArrival coded s
      let t := if full || !s.induction.permit then setForcedMerge t else t
      arbitrate (decidePermit t)
    else s

/-- MERGE_EYE_TRAILING_EDGE (R27): the trail position is the current position less the merge distance,
and a deferred arming is taken (R68). -/
def execMergeEyeTrailingEdge (s : State) : Result :=
  .next <|
    match s.track.openMerge with
    | some ref =>
      if eyesFollowed s = true ∧ s.image.induction = true then
        let trail := behind s.position.counter s.image.mergeDistance
        let t := (measure ref trail s).mapTrack fun u => { u with openMerge := none }
        arbitrate (decidePermit (settleExit ref (settleArming ref (settleWindow ref t))))
      else s
    | none => s

end Sys2Proof.Machine
end

