-- ==== Sys2Proof/Machine/Belt.lean ====
section
/-! DEFINITION. Belt position and speed (Chapter 1). -/

namespace Sys2Proof.Machine

/-- A pulse advances the position counter and the window count, which stops at 4,095; the rise to
4,095 sets OVERSPEED (R1, R7). -/
def countPulse (s : State) : State :=
  let n := s.position.windowCount
  let t := s.mapPosition fun u =>
    { u with counter := u.counter + 1#24, windowCount := min Config.windowLimit (n + 1) }
  if n + 1 = Config.windowLimit then setOverspeed t else t

/-- ENCODER_PULSE (R1), in every node state; the merge permit is decided afresh (R151). -/
def execEncoderPulse (s : State) : Result :=
  .next (if powered s then decidePermit (countPulse s) else s)

/-- The band after one step against the speed `v` (R10). -/
def bandStep (c : NodeConfig) (b : Band) (v : Nat) : Band :=
  match b with
  | .slow => if c.up01 ≤ v then .normal else .slow
  | .normal =>
    if c.up12 ≤ v then .fast else if v < c.up01 - c.hysteresis then .slow else .normal
  | .fast => if v < c.up12 - c.hysteresis then .normal else .fast

/-- The ring takes a window's count and drops its oldest (R8). -/
def pushRing (q : Quad Nat) (n : Nat) : Quad Nat := ⟨q.q1, q.q2, q.q3, n⟩

/-- The sum of the four counts of the ring (R8). -/
def ringSum (q : Quad Nat) : Nat := q.q0 + q.q1 + q.q2 + q.q3

/-- The end of a speed window (R8, R10, R11, R12): outside RUN the band stays and STOPPED goes on
holding. -/
def endWindow (run : Bool) (c : NodeConfig) (u : PositionUnit) : PositionUnit :=
  let ring := pushRing u.ring u.windowCount
  let v := ringSum ring
  { u with
    ring
    speed := v
    windowCount := 0
    windowTimer := some 0
    band := if run then bandStep c u.band v else u.band
    stopped := if run then decide (v < c.stopThreshold) else u.stopped }

/-- SPEED_WINDOW_END (R8); band and STOPPED feed the merge permit (R151). -/
def execSpeedWindowEnd (s : State) : Result :=
  .next <|
    if powered s then decidePermit (s.mapPosition (endWindow (inRun s) s.image)) else s

end Sys2Proof.Machine
end

