-- ==== Sys2Proof/Machine/Receive.lean ====
section
/-! DEFINITION. The receiver (section 6.3). -/

namespace Sys2Proof.Machine

/-- The receiver takes a state with a buffer; a character on the line sets the idle count to 0 (R115). -/
def setReceiver (r : Receiver) (buffer : List Byte) (s : State) : State :=
  s.mapLine fun u => { u with receiver := r, buffer, idleCount := 0 }

/-- A frame ends: the receiver empties the buffer and enters HUNT (R110, R111). -/
def endFrame (s : State) : State := setReceiver .hunt [] s

/-- A head as it is taken in HUNT or DISCARD (R109). -/
def takeHead (b : Byte) (s : State) : State :=
  if b.toNat / 32 ≠ 0 then bump .checkErrors (endFrame s)
  else if b.toNat % 32 = s.start.station ∨ b.toNat % 32 = Config.broadcast then
    setReceiver .body [b] s
  else setReceiver .discard [] s

/-- A head received (R109, R113): in BODY the frame in progress is truncated first. -/
def receiveHead (b : Byte) (s : State) : State :=
  match s.line.receiver with
  | .off => s
  | .body => takeHead b (bump .truncated (endFrame s))
  | .hunt => takeHead b s
  | .discard => takeHead b s

/-- CHARACTER_ERROR (R112): a framing error, or else a parity error, in every receiver state. -/
def execCharacterError (c : LineChar) (s : State) : Result :=
  .next <|
    if s.line.receiver ≠ .off ∧ charSound c = false then
      bump (if c.stopOk then .parityErrors else .framingErrors) (endFrame s)
    else s

/-- RECEIVE_OVERRUN (R110): the rest of a frame up to the byte that would be the buffer's 33rd. -/
def execReceiveOverrun (body : List Byte) (s : State) : Result :=
  .next <|
    if (headInProgress s).isSome = true ∧ bodyOverruns (bodyWith s body) = true then
      bump .overruns (endFrame s)
    else s

/-- BAD_FRAME (R111): the rest of a frame that fails one of the five tests. -/
def execBadFrame (body : List Byte) (s : State) : Result :=
  .next (if badFrameEnds s body then bump .checkErrors (endFrame s) else s)

/-- Kinds that no block acts on when they are received (section 6.2). -/
def kindUnacted : FrameKind → Bool
  | .missing => true
  | .stray => true
  | .holdAnswer => true
  | .counts => true
  | _ => false

/-- Kinds that a node in FAULT answers when they are addressed to it (R183). -/
def kindAnsweredInFault : FrameKind → Bool
  | .offer => true
  | .code => true
  | .ask => true
  | _ => false

/-- Is a good frame handed to no block (R111), or ignored in FAULT (R183)? -/
def frameUnacted (s : State) (f : InFrame) : Bool :=
  decide (f.source = s.start.station) || kindUnacted f.kind
    || (inFault s && !(kindAnsweredInFault f.kind && decide (f.dest = s.start.station)))

/-- UNACTED_FRAME (R111, R103): a good frame that is the node's own, or that is not acted on. -/
def execUnactedFrame (body : List Byte) (s : State) : Result :=
  .next <|
    match goodFrame s body with
    | some f => if frameUnacted s f then endFrame s else s
    | none => s

end Sys2Proof.Machine
end

