-- ==== Sys2Proof/Machine/Induction.lean ====
section
/-! DEFINITION. Codes and the crowd view (sections 8.4 and 8.5). -/

namespace Sys2Proof.Machine

/-! ## CODE frames -/

/-- An answer without a bag ref of its own: a bag ref of zero, and a reason where it has one (R156). -/
def zeroAnswer (dest : Nat) (kind : FrameKind) (reason : List Byte) : OutFrame :=
  { dest, kind, payload := [0#8, 0#8] ++ reason }

/-- A code is stored at the tail of the code queue (R157). -/
def storeCode (c : Code) (s : State) : State :=
  s.mapInduction fun u => { u with codes := u.codes ++ [c] }

/-- A CODE frame in RUN, by the first case of R156 that applies. -/
def takeCode (f : InFrame) (s : State) : State :=
  let cabin := payloadByte f.payload 0 * 256 + payloadByte f.payload 1
  let letter := payloadByte f.payload 2
  if f.dest = Config.broadcast then bump .foreignFrames s
  else if f.source ≠ s.image.coding then bump .foreignFrames s
  else if s.image.induction = false then
    arbitrate (queueAnswer (zeroAnswer f.source .spurn [2#8]) s)
  else if validCabin cabin = false ∨ 7 < letter then bump .checkErrors s
  else if Config.codeCapacity ≤ s.induction.codes.length then
    arbitrate (queueAnswer (zeroAnswer f.source .wait []) s)
  else arbitrate (queueAnswer (zeroAnswer f.source .take []) (storeCode { cabin, letter } s))

/-- CODE_RECEIVED (R156). In FAULT the command is FAULT_CODE. -/
def execCodeReceived (body : List Byte) (s : State) : Result :=
  .next <|
    match handedFrame s .code body with
    | some f => if inRun s then takeCode f (endFrame s) else s
    | none => s

/-! ## The crowd view -/

/-- Does the crowd view have an entry for a station? -/
def watched (s : State) (n : Nat) : Bool := s.induction.crowdView.any fun e => decide (e.station = n)

/-- A watched station is heard (R160): age 0, not silent, crowded as the frame says. -/
def hear (n : Nat) (on : Bool) (s : State) : State :=
  s.mapInduction fun u =>
    { u with
      crowdView := u.crowdView.map fun e =>
        if e.station = n then { e with crowded := on, silent := false, age := 0 } else e }

/-- A frame from a watched station whose crowded value is one byte (R160): 0 and 1 hear it, anything
else is malformed. -/
def hearFrom (f : InFrame) (value : Nat) (sound : Bool) (s : State) : State :=
  if watched s f.source then
    if sound = true ∧ value ≤ 1 then decidePermit (hear f.source (decide (value = 1)) s)
    else bump .checkErrors s
  else s

/-- CROWD_RECEIVED (R160). In FAULT it is ignored (R183). -/
def execCrowdReceived (body : List Byte) (s : State) : Result :=
  .next <|
    match handedFrame s .crowd body with
    | some f =>
      let t := endFrame s
      if inRun s then
        hearFrom f (payloadByte f.payload 0) (decide (payloadByte f.payload 1 ≤ 48)) t
      else t
    | none => s

/-- STATUS_RECEIVED (R160): the crowded field is byte 7. In FAULT it is ignored (R183). -/
def execStatusReceived (body : List Byte) (s : State) : Result :=
  .next <|
    match handedFrame s .status body with
    | some f =>
      let t := endFrame s
      if inRun s then hearFrom f (payloadByte f.payload 7) true t else t
    | none => s

/-- The silence timeout in milliseconds (R149). -/
def silenceMs (s : State) : Nat := s.image.silenceTimeout * 1000

/-- An entry whose age reaches the silence timeout (R161): crowded clear, silent, its age stops. -/
def fallSilent (limit : Nat) (e : CrowdEntry) : CrowdEntry :=
  { e with crowded := false, silent := true, age := limit }

/-- Does an entry fall silent: not silent already, not the node's own, and its age at the silence timeout
(R160, R161)? -/
def canFallSilent (s : State) (e : CrowdEntry) : Bool :=
  !e.silent && decide (e.station ≠ s.start.station) && decide (silenceMs s ≤ e.age)

/-- SILENCE_TIMEOUT (R161) for a watched station whose age has reached the silence timeout. A frame that
is taken first has set its age to 0, and the entry does not fall silent (R162). -/
def execSilenceTimeout (n : Nat) (s : State) : Result :=
  .next <|
    if inRun s = true ∧ (s.induction.crowdView.any fun e =>
        decide (e.station = n) && canFallSilent s e) = true then
      decidePermit <|
        s.mapInduction fun u =>
          { u with
            crowdView := u.crowdView.map fun e =>
              if e.station = n ∧ canFallSilent s e = true then fallSilent (silenceMs s) e else e }
    else s

end Sys2Proof.Machine
end

