-- ==== Sys2Proof/Machine/Supervision.lean ====
section
/-! DEFINITION. Supervision: the status period and the commands of the supervisory station (Chapter 9). -/

namespace Sys2Proof.Machine

/-- STATUS_TIMER_EXPIRY (R164): the timer restarts, and a STATUS falls due if none is due or held. -/
def execStatusTimerExpiry (s : State) : Result :=
  .next <|
    if powered s = true ∧ s.supervision.statusTimer.isSome = true then
      let t := s.mapSupervision fun u => { u with statusTimer := some 0 }
      arbitrate (if t.supervision.statusDue = .notDue then setStatusDue .due t else t)
    else s

/-- What the commands share (R169): one addressed to 31 or not from the supervisory station is foreign,
a malformed one is counted, and any other is carried out. In FAULT commands are left to `inFaultDo`. -/
def takeCommand (f : InFrame) (malformed : Bool) (act : State → State) (s : State) : State :=
  if f.dest = Config.broadcast then bump .foreignFrames s
  else if f.source ≠ s.image.supervisory then bump .foreignFrames s
  else if malformed then bump .checkErrors s
  else act s

/-- A STATUS in answer to an ASK (R170). -/
def answerStatus (dest : Nat) (s : State) : State :=
  arbitrate (queueAnswer { dest, kind := .status, payload := statusPayload s } s)

/-- A COUNTS frame in answer to an ASK (R167, R170). -/
def answerCounts (dest page : Nat) (s : State) : State :=
  arbitrate (queueAnswer { dest, kind := .counts, payload := countsPayload s page } s)

/-- ASK_STATUS (R169, R170): an ASK for page 0. In FAULT the command is FAULT_ASK. -/
def execAskStatus (body : List Byte) (s : State) : Result :=
  .next <|
    match handedFrame s .ask body with
    | some f =>
      if inRun s = true ∧ payloadByte f.payload 0 = 0 then
        takeCommand f false (answerStatus f.source) (endFrame s)
      else s
    | none => s

/-- ASK_COUNTS (R169, R170): an ASK for page 1 to 4, or for a page above 4, which is malformed. In
FAULT the command is FAULT_ASK. -/
def execAskCounts (body : List Byte) (s : State) : Result :=
  .next <|
    match handedFrame s .ask body with
    | some f =>
      let page := payloadByte f.payload 0
      if inRun s = true ∧ page ≠ 0 then
        takeCommand f (decide (4 < page)) (answerCounts f.source page) (endFrame s)
      else s
    | none => s

/-- The four bits combined by `f`. -/
def combine (f : Bool → Bool → Bool) (a b : Quad Bool) : Quad Bool :=
  ⟨f a.q0 b.q0, f a.q1 b.q1, f a.q2 b.q2, f a.q3 b.q3⟩

/-- The line hold bits after an operation on them with a mask (R171). -/
def holdBits (op : Nat) (mask : Quad Bool) (bits : Quad Bool) : Quad Bool :=
  match op with
  | 1 => combine (fun b m => b || m) bits mask
  | 2 => combine (fun b m => b && !m) bits mask
  | 3 => combine (fun b m => b ^^ m) bits mask
  | _ => bits

/-- The line hold bits take values. -/
def setLineHolds (q : Quad Bool) (s : State) : State :=
  { s with
    outlets :=
      ⟨{ s.outlets.q0 with lineHold := q.q0 }, { s.outlets.q1 with lineHold := q.q1 },
        { s.outlets.q2 with lineHold := q.q2 }, { s.outlets.q3 with lineHold := q.q3 }⟩ }

/-- A HOLD carried out (R171): the bits change, and the answer carries the masks before and after. -/
def carryHold (dest op : Nat) (mask : Byte) (s : State) : State :=
  let before := lineHolds s
  let after := holdBits op (maskBits mask) before
  arbitrate <|
    queueAnswer { dest, kind := .holdAnswer, payload := [maskByte before, maskByte after] }
      (setLineHolds after s)

/-- Is a HOLD malformed (R169)? -/
def holdMalformed (op : Nat) (mask : Byte) : Bool :=
  decide (3 < op) || (decide (op ≠ 0) && decide (mask.toNat / 16 ≠ 0))

/-- A HOLD frame whose operation is `op`, or is above 3 and so malformed (R169, R171). In FAULT it is
ignored (R183). -/
def takeHold (op : Nat) (body : List Byte) (s : State) : State :=
  match handedFrame s .hold body with
  | some f =>
    let found := payloadByte f.payload 0
    let mask := f.payload.getD 1 0#8
    if found = op ∨ 3 < found then
      let t := endFrame s
      if inRun s then
        takeCommand f (holdMalformed found mask) (carryHold f.source found mask) t
      else t
    else s
  | none => s

/-- HOLD_READ (R171). -/
def execHoldRead (body : List Byte) (s : State) : Result := .next (takeHold 0 body s)

/-- HOLD_SET (R171). -/
def execHoldSet (body : List Byte) (s : State) : Result := .next (takeHold 1 body s)

/-- HOLD_CLEAR (R171). -/
def execHoldClear (body : List Byte) (s : State) : Result := .next (takeHold 2 body s)

/-- HOLD_TOGGLE (R171). -/
def execHoldToggle (body : List Byte) (s : State) : Result := .next (takeHold 3 body s)

/-- ZERO (R172): the counters and three sticky flags are cleared before the answer is handed over. In
FAULT it is ignored (R183). -/
def execZero (body : List Byte) (s : State) : Result :=
  .next <|
    match handedFrame s .zero body with
    | some f =>
      let t := endFrame s
      if inRun s then
        takeCommand f false
          (fun u => arbitrate (queueAnswer (zeroAnswer f.source .take []) (zeroCounters u))) t
      else t
    | none => s

end Sys2Proof.Machine
end

