-- ==== Sys2Proof/Machine/FaultAnswers.lean ====
section
/-! DEFINITION. What a node in FAULT answers (section 10.4). -/

namespace Sys2Proof.Machine

/-- A frame of a kind taken in FAULT (R183): one addressed to this station is acted on, one addressed
to 31 is ignored without a count. -/
def takeInFault (k : FrameKind) (body : List Byte) (act : InFrame → State → State) (s : State) :
    State :=
  match handedFrame s k body with
  | some f =>
    if inFault s then
      let t := endFrame s
      if f.dest = s.start.station then act f t else t
    else s
  | none => s

/-- A SPURN with reason FAULT (R183). -/
def faultSpurn (f : InFrame) (ref : List Byte) (s : State) : State :=
  arbitrate (queueAnswer { dest := f.source, kind := .spurn, payload := ref ++ [1#8] } s)

/-- FAULT_OFFER (R183): the SPURN carries the OFFER's bytes 0 and 1. -/
def execFaultOffer (body : List Byte) (s : State) : Result :=
  .next (takeInFault .offer body (fun f => faultSpurn f (f.payload.take 2)) s)

/-- FAULT_CODE (R183): the SPURN carries a bag ref of zero. -/
def execFaultCode (body : List Byte) (s : State) : Result :=
  .next (takeInFault .code body (fun f => faultSpurn f [0#8, 0#8]) s)

/-- An ASK in FAULT (R183). -/
def faultAskAnswer (f : InFrame) (s : State) : State :=
  let page := payloadByte f.payload 0
  if page = 0 then answerStatus f.source s
  else if page ≤ 4 then answerCounts f.source page s
  else bump .checkErrors s

/-- FAULT_ASK (R183). -/
def execFaultAsk (body : List Byte) (s : State) : Result :=
  .next (takeInFault .ask body faultAskAnswer s)

end Sys2Proof.Machine
end

