-- ==== Sys2Proof/Machine/Handoff.lean ====
section
/-! DEFINITION. Handoff between segments (Chapter 7). -/

namespace Sys2Proof.Machine

/-! ## The belt's events -/

/-- OFFER_POINT (R126). -/
def execOfferPoint (ref : BagRef) (s : State) : Result :=
  .next <|
    match inTable s ref with
    | some r =>
      if inRun s = true ∧ offerPointReached s r = true then
        arbitrate (decidePermit (takeOfferPoint r s))
      else s
    | none => s

/-- SEGMENT_EXIT (R127). -/
def execSegmentExit (ref : BagRef) (s : State) : Result :=
  .next <|
    match inTable s ref with
    | some r =>
      if inRun s = true ∧ exitReached s r = true then arbitrate (decidePermit (takeExit ref s))
      else s
    | none => s

/-! ## Attempts and answers -/

/-- REPLY_WINDOW_EXPIRY (R130): a no-answer. -/
def execReplyWindowExpiry (s : State) : Result :=
  .next <|
    match offerStage s with
    | some (.listening _) => afterAttempt (bump .noAnswers s)
    | _ => s

/-- REPEAT_INTERVAL_EXPIRY (R130): the offer becomes DUE. -/
def execRepeatIntervalExpiry (s : State) : Result :=
  .next <|
    match offerStage s with
    | some (.resting _) => arbitrate (setStage .due s)
    | _ => s

/-- The outstanding offer's record, if an answer's bag ref is that of the outstanding offer (R133); a
spent offer is outstanding no longer (R128). -/
def answeredOffer (s : State) (f : InFrame) : Option BagRef :=
  match s.handoff.outbound with
  | some o => if o.ref = payloadRef f.payload ∧ o.stage ≠ .spent then some o.ref else none
  | none => none

/-- What the answers share (R133): a foreign source is counted, an answer that matches no outstanding
offer is late and ignored; in FAULT every answer is ignored (R183). DESIGN CHOICE (log entry 23): an
answer addressed to 31 is matched as one addressed to this station, by R133's words alone, where the
table of R167 lists answers addressed to 31 among the foreign frames. -/
def takeAnswer (k : FrameKind) (body : List Byte) (act : BagRef → State → State) (s : State) : State :=
  match handedFrame s k body with
  | some f =>
    let t := endFrame s
    if inRun s then
      if f.source = s.image.downstream then
        match answeredOffer s f with
        | some ref => act ref t
        | none => t
      else bump .foreignFrames t
    else t
  | none => s

/-- A WAIT for the outstanding offer (R130): taken while LISTENING alone. -/
def waitAnswer (s : State) : State :=
  match offerStage s with
  | some (.listening _) => afterAttempt s
  | _ => s

/-- A SPURN for the outstanding offer (R132): a record not stray-bound is HANDED, a stray-bound one is
spent until its exit. -/
def spurnAnswer (ref : BagRef) (s : State) : State :=
  let t := bump .spurnedOffers s
  match inTable s ref with
  | some r => if r.stray.isSome then setStage .spent (endOfferFrame t) else leaveTable ref t
  | none => t

/-- TAKE_RECEIVED (R131): the record leaves as HANDED. -/
def execTakeReceived (body : List Byte) (s : State) : Result :=
  .next (takeAnswer .take body (fun ref t => arbitrate (decidePermit (leaveTable ref t))) s)

/-- WAIT_RECEIVED (R130). -/
def execWaitReceived (body : List Byte) (s : State) : Result :=
  .next (takeAnswer .wait body (fun _ t => waitAnswer t) s)

/-- SPURN_RECEIVED (R132). -/
def execSpurnReceived (body : List Byte) (s : State) : Result :=
  .next (takeAnswer .spurn body (fun ref t => arbitrate (decidePermit (spurnAnswer ref t))) s)

/-! ## Offers from upstream -/

/-- A new PENDING record from an OFFER's fields (R16, R139). -/
def pendingRecord (o : Offered) : Record :=
  { ref := o.ref, tag := o.tag, length := o.length, laps := o.laps, stray := o.stray,
    lengthDoubt := o.lengthDoubt, relabelled := o.relabelled, refusals := o.refusals, lead := none,
    trail := none, measuredHere := false, verdict := .unresolved, firePosition := none,
    window := .notOpen, state := .pending, verdictFixed := false, resolutionDue := false,
    ready := false, pastOfferPoint := false, heldOffer := false, deadline := none,
    discardTimer := none, confirmTimer := none }

/-- An OFFER's fields in place of a record's own (R140). -/
def takeOffered (o : Offered) (r : Record) : Record :=
  { r with
    tag := o.tag, length := o.length, laps := o.laps, stray := o.stray,
    lengthDoubt := o.lengthDoubt, relabelled := o.relabelled, refusals := o.refusals }

/-- The mark of a new entry (R99, R139): LAPS where laps offered without a mark are at or above the lap
limit. -/
def entryMark (s : State) (o : Offered) : Option StrayCause :=
  if o.stray = none ∧ s.image.lapLimit ≤ o.laps then some .laps else o.stray

/-- A new PENDING entry (R139): its mark and its entry make one request (R99). -/
def enterOffer (o : Offered) (s : State) : State :=
  raiseRequest o.ref <|
    s.mapHandoff fun u =>
      { u with pendingOffers := u.pendingOffers ++ [pendingRecord { o with stray := entryMark s o }] }

/-- A repeated OFFER's changes (R140): a changed tag or mark raises a request, and changed laps or a
changed mark bring the lap check. -/
def updateOffer (o : Offered) (r : Record) (s : State) : State :=
  let markChanged := decide (o.stray.isSome ≠ r.stray.isSome)
  let t := updateRecord r.ref (takeOffered o) s
  let t := if markChanged || decide (o.tag ≠ r.tag) then raiseRequest r.ref t else t
  if markChanged || decide (o.laps ≠ r.laps) then lapCheck r.ref t else t

/-- A record as it enters the expected list (R141); a waiting request makes its resolution due (R59). -/
def expectedRecord (deadline : Position) (waiting : Bool) (r : Record) : Record :=
  { r with
    state := .expected, ready := false, discardTimer := none, deadline := some deadline,
    resolutionDue := waiting, verdict := if waiting then .unresolved else r.verdict }

/-- A READY entry moves to the tail of the expected list (R141), with the duplicate check (R34). -/
def moveToExpected (ref : BagRef) (s : State) : State :=
  match inPendingOffers s ref with
  | none => s
  | some r =>
    let waiting := decide (ref ∈ s.resolution.requests)
    let e := expectedRecord (ahead s.position.counter s.image.expectDistance) waiting r
    let t := s.mapHandoff fun u =>
      { u with
        pendingOffers := u.pendingOffers.filter fun x => decide (x.ref ≠ ref)
        expected := u.expected ++ [e] }
    let t := t.mapResolution fun u =>
      { u with requests := u.requests.filter fun x => decide (x ≠ ref) }
    duplicateCheck ref t

/-- A READY entry's discard timer starts again (R138, R142). -/
def restartDiscard (ref : BagRef) (s : State) : State :=
  updateRecord ref (fun r => { r with discardTimer := some 0 }) s

/-- What a well-formed OFFER does, and its answer, by what the node holds (R138). -/
def answerOffer (o : Offered) (s : State) : State × FrameKind :=
  if (inTable s o.ref).isSome || (inExpected s o.ref).isSome then (s, .take)
  else
    match inPendingOffers s o.ref with
    | some r =>
      let t := updateOffer o r s
      if r.ready then
        if s.handoff.expected.length < Config.expectedCapacity then (moveToExpected o.ref t, .take)
        else (restartDiscard o.ref t, .wait)
      else (t, .wait)
    | none =>
      if s.handoff.pendingOffers.length < Config.pendingOfferCapacity ∧ s.start.clearHeld = false then
        (enterOffer o s, .wait)
      else (s, .wait)

/-- OFFER_RECEIVED (R137, R138). In FAULT the command is FAULT_OFFER. -/
def execOfferReceived (body : List Byte) (s : State) : Result :=
  .next <|
    match handedFrame s .offer body with
    | some f =>
      if inRun s then
        let t := endFrame s
        if f.dest = Config.broadcast then bump .foreignFrames t
        else
          match decodeOffer f.payload with
          | none => bump .checkErrors t
          | some o =>
            let a := answerOffer o t
            arbitrate <|
              queueAnswer { dest := f.source, kind := a.2, payload := refBytes o.ref } a.1
      else s
    | none => s

/-! ## Timers of the inbound side -/

/-- DISCARD_TIMEOUT (R142): the entry leaves as PURGED. -/
def execDiscardTimeout (ref : BagRef) (s : State) : Result :=
  .next <|
    match inPendingOffers s ref with
    | some r =>
      if inRun s = true ∧ r.ready = true ∧ r.discardTimer.isSome = true then
        bump .pendingDiscards (leave ref s)
      else s
    | none => s

/-- EXPECTED_DEADLINE (R145): the head leaves as MISSING, and so does a new head whose deadline has
already been reached (R144). -/
def execExpectedDeadline (s : State) : Result :=
  .next <|
    match deadlineReached s with
    | some _ =>
      if inRun s then arbitrate (settleDeadlines s.handoff.expected.length s) else s
    | none => s

end Sys2Proof.Machine
end

