-- ==== Sys2Proof/Machine/Resolution.lean ====
section
/-! DEFINITION. Resolutions and CABIN frames (Chapter 3). -/

namespace Sys2Proof.Machine

/-! ## Completion -/

/-- Is the result of a resolution written to a record, by its state (R56)? -/
def resultWritten (r : Record) : Bool :=
  match r.state with
  | .pending => true
  | .expected => !r.resolutionDue
  | .onBelt => !r.verdictFixed
  | .exiting => !r.verdictFixed
  | .armed => false
  | .diverting => false

/-- A RESOLVING entry becomes READY and its discard timer starts (R56, R142). -/
def becomeReady (r : Record) : Record :=
  if r.state = .pending ∧ r.ready = false then { r with ready := true, discardTimer := some 0 } else r

/-- The mark a completion sets (R56, R17). -/
def writeMark (mark : Option StrayCause) (ref : BagRef) (s : State) : State :=
  match mark with
  | some c => markStray c ref s
  | none => s

/-- The result is written to the record wherever it stands, or discarded (R56); a verdict that sets an
arming wait already reached is armed at once (R68). -/
def writeResult (v : Service) (s : State) : State :=
  match v.owner with
  | none => s
  | some ref =>
    match heldRecord s ref with
    | none => s
    | some r =>
      if resultWritten r then
        settleArming ref <|
          writeMark v.mark ref <|
            updateRecord ref (fun r => becomeReady { r with verdict := v.verdict }) s
      else s

/-- RESOLUTION_COMPLETE (R56): the result is written or discarded, and the next request starts (R52).
DESIGN CHOICE (log entry 22): the next request is taken last, after the requests that the written mark
and an arming taken at once (R68) raise; R52 puts both at the completion and gives no order. -/
def execResolutionComplete (s : State) : Result :=
  .next <|
    match s.resolution.service with
    | some v =>
      startResolution ((writeResult v s).mapResolution fun u => { u with service := none })
    | none => s

/-! ## The exception table -/

/-- An entry is valid unless its kind, its cabin or a REDIRECT's target is out of range (R46). -/
def cabinEntryValid (e : CabinEntry) : Bool :=
  decide (e.kind ≤ 3) && validCabin e.cabin && (decide (e.kind ≠ 3) || validCabin e.target)

/-- Does a cabin lie in a window that is on (R47)? -/
def inSomeWindow (s : State) (c : Nat) : Bool :=
  s.image.windows.any fun w => decide (w.base ≤ w.limit ∧ w.base ≤ c ∧ c ≤ w.limit)

/-- The filter of R47: an entry's cabin, or a REDIRECT's cabin or target, lies in a window. -/
def passesFilter (s : State) (cabin : Nat) (kind : ExceptionKind) : Bool :=
  inSomeWindow s cabin ||
    match kind with
    | .redirect target => inSomeWindow s target
    | .cancelled => false
    | .hold => false

/-- An entry stored in ascending order of cabin, replacing the entry for its cabin (R44, R47). -/
def storeException (e : ExceptionEntry) : List ExceptionEntry → List ExceptionEntry
  | [] => [e]
  | x :: rest =>
    if e.cabin < x.cabin then e :: x :: rest
    else if e.cabin = x.cabin then e :: rest
    else x :: storeException e rest

/-- The table without its entry for a cabin (R50). -/
def removeException (c : Nat) (l : List ExceptionEntry) : List ExceptionEntry :=
  l.filter fun e => decide (e.cabin ≠ c)

/-- The records whose requests a change of a cabin's entry raises, in the order of R51: tagged with the
cabin and with a verdict not fixed. -/
def recordsForCabin (s : State) (c : Nat) : List BagRef :=
  ((heldRecords s).filter fun r =>
    decide (r.tag.map (·.cabin) = some c) && !r.verdictFixed).map (·.ref)

/-- A change of the table, with the requests of R51. -/
def changeExceptions (c : Nat) (f : List ExceptionEntry → List ExceptionEntry) (s : State) : State :=
  raiseRequests (recordsForCabin s c)
    (s.mapResolution fun u => { u with exceptions := f u.exceptions })

/-- Removal of the entry for a cabin, if there is one (R48, R50). -/
def clearException (c : Nat) (s : State) : State :=
  if (exceptionFor s c).isSome then changeExceptions c (removeException c) s else s

/-- An entry of kind CANCELLED, HOLD or REDIRECT (R47 to R49). -/
def applyException (c : Nat) (kind : ExceptionKind) (s : State) : State :=
  if passesFilter s c kind then
    if (exceptionFor s c).isSome = true
        ∨ s.resolution.exceptions.length < Config.exceptionCapacity then
      changeExceptions c (storeException { cabin := c, kind }) s
    else setExceptionOverrun (bump .droppedExceptions s)
  else clearException c s

/-- The head of the CABIN entries not yet applied is taken off. -/
def popCabinEntry (s : State) : State :=
  s.mapResolution fun u => { u with cabinEntries := u.cabinEntries.tail }

/-- An entry that no CABIN_ENTRY command applies: a kind above 3, or a cabin out of range (R46). -/
def entryWithoutEvent (e : CabinEntry) : Bool := decide (3 < e.kind) || !validCabin e.cabin

/-- Such entries at the head of those not yet applied are counted and change nothing (R46); at most `n`
of them. -/
def dropInvalidEntries : Nat → State → State
  | 0, s => s
  | n + 1, s =>
    match s.resolution.cabinEntries with
    | e :: _ =>
      if entryWithoutEvent e then
        dropInvalidEntries n (bump .droppedExceptions (popCabinEntry s))
      else s
    | [] => s

/-- Drop what no command applies, as far as it stands at the head. -/
def settleCabinEntries (s : State) : State :=
  dropInvalidEntries s.resolution.cabinEntries.length s

/-- CABIN_FRAME (R45): from the manifest station its entries wait to be applied one by one; from another
it is foreign. In FAULT it is ignored (R183). -/
def execCabinFrame (body : List Byte) (s : State) : Result :=
  .next <|
    match handedFrame s .cabin body with
    | some f =>
      let t := endFrame s
      if inRun s then
        if f.source = s.image.manifest then
          settleCabinEntries <|
            t.mapResolution fun u =>
              { u with cabinEntries := u.cabinEntries ++ cabinEntriesOf f.payload }
        else bump .foreignFrames t
      else t
    | none => s

/-- The head of the CABIN entries is applied, if it is of a kind (R45); an invalid one is counted
(R46). -/
def applyCabinEntry (kind : Nat) (apply : CabinEntry → State → State) (s : State) : State :=
  match s.resolution.cabinEntries with
  | e :: _ =>
    if inRun s = true ∧ e.kind = kind then
      let t := popCabinEntry s
      settleCabinEntries (if cabinEntryValid e then apply e t else bump .droppedExceptions t)
    else s
  | [] => s

/-- CABIN_ENTRY_CLEAR (R50). -/
def execCabinEntryClear (s : State) : Result :=
  .next (applyCabinEntry 0 (fun e => clearException e.cabin) s)

/-- CABIN_ENTRY_CANCELLED (R47 to R49). -/
def execCabinEntryCancelled (s : State) : Result :=
  .next (applyCabinEntry 1 (fun e => applyException e.cabin .cancelled) s)

/-- CABIN_ENTRY_HOLD (R47 to R49). -/
def execCabinEntryHold (s : State) : Result :=
  .next (applyCabinEntry 2 (fun e => applyException e.cabin .hold) s)

/-- CABIN_ENTRY_REDIRECT (R47 to R49). -/
def execCabinEntryRedirect (s : State) : Result :=
  .next (applyCabinEntry 3 (fun e => applyException e.cabin (.redirect e.target)) s)

end Sys2Proof.Machine
end

