-- ==== Sys2Proof/Machine/Characters.lean ====
section
/-! DEFINITION. The characters of the line one by one (section 6.3): a head, or a byte of the frame in
progress, with the block that takes the frame which that byte ends. -/

namespace Sys2Proof.Machine

/-- An ASK goes to the command of its page (R170; log entry 14 for a page above 4). -/
def handAsk (page : Nat) (s : State) : Result :=
  if page = 0 then execAskStatus [] s else execAskCounts [] s

/-- A HOLD goes to the command of its operation (R171; log entry 14 for one above 3). -/
def handHold (op : Nat) (s : State) : Result :=
  match op with
  | 1 => execHoldSet [] s
  | 2 => execHoldClear [] s
  | 3 => execHoldToggle [] s
  | _ => execHoldRead [] s

/-- A good frame, whole in the buffer, is handed to the block that the kind table names (R111). -/
def handFrame (f : InFrame) (s : State) : Result :=
  match f.kind with
  | .offer => execOfferReceived [] s
  | .take => execTakeReceived [] s
  | .wait => execWaitReceived [] s
  | .spurn => execSpurnReceived [] s
  | .cabin => execCabinFrame [] s
  | .code => execCodeReceived [] s
  | .crowd => execCrowdReceived [] s
  | .status => execStatusReceived [] s
  | .ask => handAsk (payloadByte f.payload 0) s
  | .hold => handHold (payloadByte f.payload 0) s
  | .zero => execZero [] s
  | .missing => execUnactedFrame [] s
  | .stray => execUnactedFrame [] s
  | .holdAnswer => execUnactedFrame [] s
  | .counts => execUnactedFrame [] s

/-- A good frame of a kind that a node in FAULT answers (R183). -/
def handFrameInFault (f : InFrame) (s : State) : Result :=
  match f.kind with
  | .offer => execFaultOffer [] s
  | .code => execFaultCode [] s
  | _ => execFaultAsk [] s

/-- The frame whose last byte has entered the buffer is tested, and handed over if it is good (R110,
R111, R183). -/
def endOfFrame (s : State) : Result :=
  match goodFrame s [] with
  | none => execBadFrame [] s
  | some f =>
    if frameUnacted s f then execUnactedFrame [] s
    else if inFault s then handFrameInFault f s
    else handFrame f s

/-- A body character in BODY (R110): its byte enters the buffer, and may be the one that ends the frame;
the byte that would be the 33rd is an overrun. -/
def collect (b : Byte) (s : State) : Result :=
  if Config.bufferBytes ≤ s.line.buffer.length then .next (bump .overruns (endFrame s))
  else
    let t := setReceiver .body (s.line.buffer ++ [b]) s
    if bodyEnds (bodyWith t []) then endOfFrame t else .next t

/-- A body character on the line (section 6.3, R115): its start bit sets the idle count to 0; HUNT and
DISCARD ignore its byte, and BODY collects it. -/
def bodyCharacter (b : Byte) (s : State) : Result :=
  match s.line.receiver with
  | .off => .next s
  | .body => collect b s
  | r => .next (setReceiver r s.line.buffer s)

/-- FRAME_HEAD (R109, R110, R113): a head, or a body character of a frame, by its mark bit. -/
def execFrameHead (c : LineChar) (s : State) : Result :=
  if charSound c then (if c.mark then .next (receiveHead c.data s) else bodyCharacter c.data s)
  else .next s

end Sys2Proof.Machine
end

