-- ==== Sys2Proof/Machine/Clear.lean ====
section
/-! DEFINITION. Segment clear (section 10.5). -/

namespace Sys2Proof.Machine

/-- An outlet at the assertion of segment clear (R80, R89): its DIVERTING records leave, FAULTED is
cleared, and a pusher that is NOT HOME begins a fresh return. -/
def clearOutlet (o : Outlet) : Outlet :=
  let p := if o.pusher = .notHome then Pusher.retracting else o.pusher
  let t := if o.pusher = .notHome then some 0 else o.homeTimer
  { o with pusher := p, homeTimer := t, faulted := false, diverting := [] }

/-- The outstanding offer ends at the assertion of segment clear (R134, R184). Where its frame is
withdrawn the turn passes to the notices, against the table of R125 (DESIGN CHOICE, unsafe, log
entry 19). -/
def clearOffer (s : State) : State :=
  (endOfferFrame s).mapHandoff fun u => { u with outbound := none }

/-- Every collection of records is emptied, with all that belongs to the records (R184, steps 1, 2
and 4); a resolution in service will be discarded (R60). -/
def emptyCollections (s : State) : State :=
  { s with
    track := { s.track with table := [], openEntry := none, openMerge := none }
    handoff := { s.handoff with pendingOffers := [], expected := [] }
    resolution :=
      { s.resolution with
        requests := []
        service := s.resolution.service.map fun v => { v with owner := none } } }

/-- The tagged records that a segment clear purges, in the order of their MISSING notices (R184). -/
def clearedTagged (s : State) : List Record :=
  (s.track.table ++ s.handoff.expected ++ s.handoff.pendingOffers).filter fun r => !untagged r

/-- The MISSING notices of records, handed over in order. -/
def queueMissing (l : List Record) (s : State) : State :=
  l.foldl (fun t r => queueNotice (missingNotice r) t) s

/-- The assertion of segment clear (R184), the input being held. -/
def clearSegment (s : State) : State :=
  let t := (emptyCollections (clearOffer s)).mapOutlets clearOutlet
  arbitrate (queueMissing (clearedTagged s) (decidePermit (occupancyFell t)))

/-- SEGMENT_CLEAR_ASSERT (R184). In START and FAULT the input is not acted on (R176, R182). -/
def execSegmentClearAssert (s : State) : Result :=
  .next <|
    if powered s = true ∧ s.start.clearHeld = false then
      let t := s.mapStart fun u => { u with clearHeld := true }
      if inRun s then clearSegment t else t
    else s

/-- SEGMENT_CLEAR_RELEASE (R186): the merge permit is decided afresh. -/
def execSegmentClearRelease (s : State) : Result :=
  .next <|
    if powered s then decidePermit (s.mapStart fun u => { u with clearHeld := false }) else s

end Sys2Proof.Machine
end

