-- ==== Sys2Proof/Machine/Outlets.lean ====
section
/-! DEFINITION. Outlets, pushers and chutes (Chapter 4). -/

namespace Sys2Proof.Machine

/-- Outlet `k` takes events of its pusher and chute: in RUN, with a role other than UNUSED (R64). -/
def outletActive (s : State) (k : OutletNo) : Bool :=
  inRun s && decide ((outletImage s k).role ≠ .unused)

/-- ARMING (R68): a record whose arming position has been reached. -/
def execArming (ref : BagRef) (s : State) : Result :=
  .next (if inRun s then settleArming ref s else s)

/-- The outlet at which an ARMED record fires, once its fire position has been reached (R72, R74). -/
def fireReached (s : State) (r : Record) : Option OutletNo :=
  match r.firePosition with
  | some f => if r.state = .armed ∧ reached s f = true then verdictOutlet r.verdict else none
  | none => none

/-- FIRE (R74, R75). -/
def execFire (ref : BagRef) (s : State) : Result :=
  .next <|
    match inTable s ref with
    | some r =>
      match fireReached s r with
      | some k => if inRun s then takeFire k ref s else s
      | none => s
    | none => s

/-- DWELL_EXPIRY (R77). -/
def execDwellExpiry (k : OutletNo) (s : State) : Result :=
  .next <|
    let o := s.outlets.get k
    if outletActive s k = true ∧ o.pusher = .extended ∧ o.dwellTimer.isSome = true then
      s.mapOutlet k fun o =>
        if o.homeSensor then { o with pusher := .home, dwellTimer := none }
        else { o with pusher := .retracting, dwellTimer := none, homeTimer := some 0 }
    else s

/-- HOME_TIMEOUT (R79). -/
def execHomeTimeout (k : OutletNo) (s : State) : Result :=
  .next <|
    let o := s.outlets.get k
    if outletActive s k = true ∧ o.pusher = .retracting ∧ o.homeTimer.isSome = true then
      s.mapOutlet k fun o => { o with pusher := .notHome, homeTimer := none, faulted := true }
    else s

/-- The table of R78: what a home sensor edge does to the pusher. -/
def homeEdge (asserted : Bool) (o : Outlet) : Outlet :=
  match o.pusher, asserted with
  | .home, true => o
  | .home, false => { o with pusher := .retracting, homeTimer := some 0 }
  | .extended, _ => o
  | .retracting, true => { o with pusher := .home, homeTimer := none }
  | .retracting, false => o
  | .notHome, true => { o with pusher := .home }
  | .notHome, false => o

/-- HOME_SENSOR_EDGE (R78). The level is kept in every node state; the pusher follows it in RUN. -/
def execHomeSensorEdge (k : OutletNo) (asserted : Bool) (s : State) : Result :=
  .next <|
    if powered s then
      s.mapOutlet k fun o =>
        let p := { o with homeSensor := asserted }
        if outletActive s k then homeEdge asserted p else p
    else s

/-- The fill count rises by one, stopping at 255, where it sets COUNT LIMIT (R84). -/
def raiseFill (k : OutletNo) (s : State) : State :=
  let n := (s.outlets.get k).fill
  if Config.fillLimit ≤ n then s
  else
    let t := s.mapOutlet k fun o => { o with fill := n + 1 }
    if n + 1 = Config.fillLimit then setCountLimit t else t

/-- The confirmation of a record at outlet `k` (R81, R100): it leaves as DELIVERED, and at a STRAY
outlet a STRAY notice is made from the record as it stood. A CROWD notice of the same event precedes it
in the notice queue (R121). -/
def confirm (k : OutletNo) (r : Record) (s : State) : State :=
  let t := bump (.delivered k) (leaveTable r.ref s)
  if (outletImage s k).role = .stray then
    queueNotice (strayNotice s r) (bump .straysDelivered t)
  else t

/-- An entry to the chute of outlet `k` (R81): it confirms the oldest DIVERTING record, or is
unexpected. -/
def chuteEntry (k : OutletNo) (s : State) : State :=
  match (s.outlets.get k).diverting with
  | ref :: _ =>
    match inTable s ref with
    | some r => confirm k r s
    | none => bump .unexpectedEntries s
  | [] => bump .unexpectedEntries s

/-- CHUTE_ENTRY (R81, R84), in RUN, segment clear held or not. -/
def execChuteEntry (k : OutletNo) (s : State) : Result :=
  .next <|
    if outletActive s k then arbitrate (decidePermit (raiseFill k (chuteEntry k s))) else s

/-- A record is taken off its outlet's DIVERTING records. -/
def endDiverting (ref : BagRef) (s : State) : State :=
  s.mapOutlets fun o => { o with diverting := o.diverting.filter fun x => decide (x ≠ ref) }

/-- The confirm timer of a DIVERTING record expires (R82): PUSHMISS, and a record past its offer point
becomes EXITING (R126). -/
def pushMiss (r : Record) (s : State) : State :=
  let t := refuse .pushMiss r.ref (endDiverting r.ref s)
  if r.pastOfferPoint then becomeExiting r.ref t else t

/-- CONFIRM_TIMEOUT (R82). -/
def execConfirmTimeout (ref : BagRef) (s : State) : Result :=
  .next <|
    match inTable s ref with
    | some r =>
      if inRun s = true ∧ r.state = .diverting ∧ r.confirmTimer.isSome = true then
        arbitrate (decidePermit (pushMiss r s))
      else s
    | none => s

/-- CART_SWAP (R85): the absent-to-present edge, followed in every node state. -/
def execCartSwap (k : OutletNo) (s : State) : Result :=
  .next <|
    if powered s then s.mapOutlet k fun o => { o with cartPresent := true, fill := 0 } else s

/-- CART_REMOVAL (R85): the present-to-absent edge; the fill count stays. -/
def execCartRemoval (k : OutletNo) (s : State) : Result :=
  .next <| if powered s then s.mapOutlet k fun o => { o with cartPresent := false } else s

/-- HOLD_SWITCH_CHANGE (R66), followed in every node state. -/
def execHoldSwitchChange (k : OutletNo) (on : Bool) (s : State) : Result :=
  .next <| if powered s then s.mapOutlet k fun o => { o with holdSwitch := on } else s

end Sys2Proof.Machine
end

