-- ==== Sys2Proof/Machine/Reader.lean ====
section
/-! DEFINITION. The tag reader (section 2.4). -/

namespace Sys2Proof.Machine

/-- The reader input is followed in RUN on a node with a reader (R31), segment clear held or not (R38). -/
def readerFollowed (s : State) : Bool := inRun s && s.image.readerFitted

/-- The message in progress takes these bytes and this gap time. -/
def setReader (bytes : List Byte) (gap : Option Nat) (s : State) : State :=
  s.mapTrack fun u => { u with readerBytes := bytes, readerGap := gap }

/-- A damaged message: it ends and is counted once (R31). -/
def damagedMessage (s : State) : State := bump .unboundReads (setReader [] none s)

/-- Does a READ result clear a mark with this cause (R33 step 3)? -/
def readClears : Option StrayCause → Bool
  | none => true
  | some .noread => true
  | some .anon => true
  | some .doubt => true
  | some .cancelled => false
  | some .hold => false
  | some .duplicate => false
  | some .laps => false
  | some .oversize => false

/-- Does a record hold a tag with a different cabin or letter (R33 step 1)? -/
def otherTag (r : Record) (cabin letter : Nat) : Bool :=
  match r.tag with
  | some t => decide (t.cabin ≠ cabin ∨ t.letter ≠ letter)
  | none => false

/-- Steps 1 to 3 of R33 on the record: its tag, relabelled, mark and length doubt; its window closes. -/
def readRecord (cabin letter : Nat) (r : Record) : Record :=
  let clears := readClears r.stray
  { r with
    tag := some { cabin, letter, source := .read }
    relabelled := r.relabelled || otherTag r cabin letter
    stray := if clears then none else r.stray
    lengthDoubt := if clears then false else r.lengthDoubt
    window := .closed }

/-- A READ result bound to a record (R33), with the lap check of R99 in step 3, the duplicate check of
step 4 and the request of step 5. -/
def bindRead (r : Record) (cabin letter : Nat) (s : State) : State :=
  let t := updateRecord r.ref (readRecord cabin letter) s
  let t := if readClears r.stray then lapCheck r.ref t else t
  raiseRequest r.ref (duplicateCheck r.ref t)

/-- The front-most record whose read window is OPEN (R33). -/
def frontOpenWindow (s : State) : Option Record :=
  s.track.table.find? fun r => decide (r.window = .open)

/-- A result is bound to the front-most open window, or counted as an unbound read (R33, R35). -/
def takeResult (res : ReaderResult) (s : State) : State :=
  match frontOpenWindow s with
  | none => bump .unboundReads s
  | some r =>
    match res with
    | .read cabin letter => bindRead r cabin letter s
    | .noread => closeWindow r s

/-- A byte of the reader input whose character had its stop bit (R31): the marker begins a message,
and the sixth byte is its check byte. -/
def readerByte (b : Byte) (s : State) : State :=
  match s.track.readerBytes with
  | [] => if b = Config.readerMarker then setReader [b] (some 0) s else bump .unboundReads s
  | l =>
    let l' := l ++ [b]
    if l'.length < 6 then setReader l' (some 0) s
    else
      match readerResult l' with
      | some res => takeResult res (setReader [] none s)
      | none => damagedMessage s

/-- READER_MESSAGE (R31): bytes that the reader sends without a gap, each with its stop bit: a whole message
of six, the last being its check byte, or the first bytes of one that a gap or a damaged character then
cuts short. -/
def execReaderMessage (bytes : List Byte) (s : State) : Result :=
  .next (if readerFollowed s then bytes.foldl (fun t b => readerByte b t) s else s)

/-- READER_GAP_TIMEOUT (R31): the message in progress is damaged. -/
def execReaderGapTimeout (s : State) : Result :=
  .next (if readerFollowed s = true ∧ s.track.readerBytes ≠ [] then damagedMessage s else s)

/-- DAMAGED_READER_BYTE (R31): a character without its stop bit ends the message in progress as
damaged, and with none in progress is damaged by itself; a byte with its stop bit is taken as any. -/
def execDamagedReaderByte (b : Byte) (stopOk : Bool) (s : State) : Result :=
  .next <|
    if readerFollowed s then (if stopOk then readerByte b s else damagedMessage s) else s

/-- READ_WINDOW_OPEN (R32). -/
def execReadWindowOpen (ref : BagRef) (s : State) : Result :=
  .next <|
    match inTable s ref with
    | some r =>
      if inRun s = true ∧ r.window = .notOpen ∧ windowOpenReached s r = true then openWindow ref s
      else s
    | none => s

/-- READ_WINDOW_CLOSE (R32): a window that closes with no result bound is a close without result. -/
def execReadWindowClose (ref : BagRef) (s : State) : Result :=
  .next <|
    match inTable s ref with
    | some r =>
      if inRun s = true ∧ r.window = .open ∧ windowCloseReached s r = true then closeWindow r s
      else s
    | none => s

end Sys2Proof.Machine
end

