-- ==== Sys2Proof/Machine/Image.lean ====
section
/-! DEFINITION. The configuration image: its layout and the checks of START (R176 to R180, R41). -/

namespace Sys2Proof.Machine

/-- The byte of the image at a place. -/
def imageByte (img : List Byte) (i : Nat) : Nat := (img.getD i 0#8).toNat

/-- The two-byte field of the image at a place. -/
def imageWord (img : List Byte) (i : Nat) : Nat := imageByte img i * 256 + imageByte img (i + 1)

/-- The rate a divide of the 16 MHz clock gives (R107); no other divide has a meaning. -/
def rateOfDivide : Nat → Option LineRate
  | 128 => some .kbit125
  | 64 => some .kbit250
  | 32 => some .kbit500
  | _ => none

/-- The role a code gives (section 10.3). -/
def roleOfCode : Nat → Role
  | 1 => .deck
  | 2 => .stray
  | _ => .unused

/-- The watch set's four bytes as one 32-bit number. -/
def imageWatchSet (img : List Byte) : BitVec 32 :=
  BitVec.ofNat 32 (imageWord img 47 * 65536 + imageWord img 49)

/-- Outlet `k`'s eighteen bytes, from byte 54 + 18k. -/
def imageOutlet (img : List Byte) (k : Nat) : OutletConfig :=
  let b := 54 + 18 * k
  { role := roleOfCode (imageByte img b)
    distance := imageWord img (b + 1)
    maxLength := imageWord img (b + 3)
    leadSlow := imageWord img (b + 5)
    leadNormal := imageWord img (b + 7)
    leadFast := imageWord img (b + 9)
    dwell := imageWord img (b + 11)
    homeTimeout := imageWord img (b + 13)
    confirmTimeout := imageWord img (b + 15)
    capacity := imageByte img (b + 17) }

/-- Window `j`'s nine bytes, from byte 126 + 9j. -/
def imageWindow (img : List Byte) (j : Nat) : Window :=
  let b := 126 + 9 * j
  { base := imageWord img b
    limit := imageWord img (b + 2)
    outlet := Fin.ofNat 4 (imageByte img (b + 4))
    carve :=
      if imageByte img (b + 5) = 1 then
        some
          { low := imageByte img (b + 6), high := imageByte img (b + 7),
            outlet := Fin.ofNat 4 (imageByte img (b + 8)) }
      else none }

/-- The values of an image (section 10.3). -/
def imageValues (img : List Byte) : NodeConfig :=
  { rate := (rateOfDivide (imageByte img 1)).getD .kbit125
    manifest := imageByte img 2
    coding := imageByte img 3
    supervisory := imageByte img 4
    downstream := imageByte img 5
    loopHead := decide (imageByte img 6 = 1)
    lapLimit := imageByte img 7
    readerFitted := decide (imageByte img 8 = 1)
    readerRate := imageByte img 9
    readerDistance := imageWord img 10
    readerLatency := imageWord img 12
    tolerance := imageByte img 14
    armDistance := imageWord img 15
    gapSlow := imageWord img 17
    gapNormal := imageWord img 19
    gapFast := imageWord img 21
    up01 := imageWord img 23
    up12 := imageWord img 25
    hysteresis := imageWord img 27
    stopThreshold := imageByte img 29
    statusPeriod := imageWord img 30
    offerDistance := imageWord img 32
    segmentLength := imageWord img 34
    replyWindow := imageByte img 36
    repeatInterval := imageByte img 37
    attemptLimit := imageByte img 38
    expectDistance := imageWord img 39
    discardTimeout := imageByte img 41
    induction := decide (imageByte img 42 = 1)
    mergeDistance := imageWord img 43
    mergeWindow := imageWord img 45
    watchSet := imageWatchSet img
    silenceTimeout := imageByte img 51
    highWater := imageByte img 52
    lowWater := imageByte img 53
    outlets :=
      ⟨imageOutlet img 0, imageOutlet img 1, imageOutlet img 2, imageOutlet img 3⟩
    windows := (List.range 8).map (imageWindow img) }

/-- Does a number lie from `lo` to `hi`, both included? -/
def within (lo hi n : Nat) : Bool := decide (lo ≤ n ∧ n ≤ hi)

/-- The RANGE check of one outlet: of an UNUSED outlet only the role byte is examined (R179). -/
def outletRangeOk (img : List Byte) (k : Nat) : Bool :=
  let role := imageByte img (54 + 18 * k)
  let o := imageOutlet img k
  within 0 2 role &&
    (decide (role = 0) ||
      (within 1 65535 o.distance && within 1 65535 o.maxLength && within 0 2000 o.leadSlow
        && within 0 2000 o.leadNormal && within 0 2000 o.leadFast && within 20 2000 o.dwell
        && within 20 5000 o.homeTimeout && within 100 10000 o.confirmTimeout
        && within 1 250 o.capacity))

/-- The RANGE check of one window (R41, R179). -/
def windowRangeOk (img : List Byte) (j : Nat) : Bool :=
  let b := 126 + 9 * j
  within 0 3 (imageByte img (b + 4)) && within 0 1 (imageByte img (b + 5)) &&
    (decide (imageByte img (b + 5) = 0) ||
      (within 0 99 (imageByte img (b + 6)) && within 0 99 (imageByte img (b + 7))
        && within 0 3 (imageByte img (b + 8))))

/-- The RANGE check of the fields examined where a reader is fitted (R179). -/
def readerRangeOk (img : List Byte) : Bool :=
  within 0 3 (imageByte img 9) && within 1 65535 (imageWord img 10)

/-- The RANGE check of the fields examined on an induction node (R179). -/
def inductionRangeOk (img : List Byte) : Bool :=
  within 1 65535 (imageWord img 43) && !(imageWatchSet img).getLsbD 0
    && !(imageWatchSet img).getLsbD 31 && within 1 10 (imageByte img 51)

/-- The RANGE check (R179, R9, R149). -/
def rangeOk (img : List Byte) : Bool :=
  (rateOfDivide (imageByte img 1)).isSome
    && validStation (imageByte img 2) && validStation (imageByte img 3)
    && validStation (imageByte img 4) && validStation (imageByte img 5)
    && within 0 1 (imageByte img 6) && within 1 7 (imageByte img 7)
    && within 0 1 (imageByte img 8)
    && (decide (imageByte img 8 = 0) || readerRangeOk img)
    && within 0 50 (imageByte img 14) && within 1 65535 (imageWord img 15)
    && within 1 16380 (imageWord img 23) && within 1 16380 (imageWord img 25)
    && decide (imageWord img 23 < imageWord img 25)
    && within 0 16380 (imageWord img 27) && within 1 255 (imageByte img 29)
    && within 100 2000 (imageWord img 30) && within 1 65535 (imageWord img 32)
    && within 1 65535 (imageWord img 34) && within 1 20 (imageByte img 36)
    && within 1 20 (imageByte img 37) && within 1 15 (imageByte img 38)
    && within 1 65535 (imageWord img 39) && within 5 200 (imageByte img 41)
    && within 0 1 (imageByte img 42)
    && (decide (imageByte img 42 = 0) || inductionRangeOk img)
    && within 1 48 (imageByte img 52) && within 0 47 (imageByte img 53)
    && decide (imageByte img 53 < imageByte img 52)
    && (List.range 4).all (outletRangeOk img) && (List.range 8).all (windowRangeOk img)

/-- The GEOMETRY conditions of one outlet (R180). -/
def outletGeometryOk (c : NodeConfig) (o : OutletConfig) : Bool :=
  decide (o.role = .unused) ||
    decide (c.armDistance ≤ o.distance ∧ o.maxLength ≤ o.distance - c.armDistance
      ∧ o.distance + o.maxLength < c.offerDistance)

/-- The largest of the three minimum gaps. -/
def largestGap (c : NodeConfig) : Nat := max c.gapSlow (max c.gapNormal c.gapFast)

/-- The GEOMETRY check (R180). -/
def geometryOk (c : NodeConfig) : Bool :=
  c.outlets.toList.all (outletGeometryOk c)
    && decide (c.offerDistance ≤ c.segmentLength)
    && (!c.induction ||
      (decide (c.mergeWindow + largestGap c < c.mergeDistance)
        && (!c.readerFitted || decide (c.mergeDistance < c.readerDistance))))

/-- A window whose base is at or below its limit is on (R40). -/
def windowOn (w : Window) : Bool := decide (w.base ≤ w.limit)

/-- Is outlet `k`'s role other than UNUSED? -/
def outletUsed (c : NodeConfig) (k : OutletNo) : Bool :=
  decide ((c.outlets.get k).role ≠ .unused)

/-- The WINDOW check of a window that is on against the outlet roles (R41). -/
def windowOutletsOk (c : NodeConfig) (w : Window) : Bool :=
  !windowOn w ||
    (outletUsed c w.outlet &&
      match w.carve with
      | none => true
      | some cv => outletUsed c cv.outlet)

/-- The WINDOW check (R41): no carve-out in windows 4 to 7, and no window that is on naming an UNUSED
outlet. -/
def windowsOk (c : NodeConfig) : Bool :=
  (c.windows.drop 4).all (fun w => w.carve.isNone) && c.windows.all (windowOutletsOk c)

/-- The first check of the image that fails, in the order of R176, or `none` where every check
passes. An image of fewer than 256 bytes is a memory that stopped answering (R178). -/
def imageFault (img : List Byte) : FaultReason :=
  if img.length < 256 then .noImage
  else if byteSum (img.take 256) ≠ 0#8 then .checksum
  else if img.getD 0 0#8 ≠ Config.imageFormat then .format
  else if rangeOk img = false then .range
  else if geometryOk (imageValues img) = false then .geometry
  else if windowsOk (imageValues img) = false then .window
  else .none

/-- The line rate that a node in FAULT may use (R182): the image's bytes were read, and byte 1 holds
one of the three divides. -/
def faultRate (img : List Byte) : Option LineRate :=
  if img.length < 256 then none else rateOfDivide (imageByte img 1)

end Sys2Proof.Machine
end

