-- ==== Sys2Proof/Machine/Startup.lean ====
section
/-! DEFINITION. Power-up reset and the START sequence (sections 10.1 to 10.4). -/

namespace Sys2Proof.Machine

/-- A pusher at the entry to RUN (R76): HOME if its sensor is asserted, else RETRACTING with its home
timer started. An UNUSED outlet's pusher is not driven (R64). -/
def findPusher (c : NodeConfig) (s : State) (k : OutletNo) : Outlet :=
  let o := s.outlets.get k
  if (c.outlets.get k).role = .unused ∨ o.homeSensor = true then
    { o with pusher := .home, homeTimer := none }
  else { o with pusher := .retracting, homeTimer := some 0 }

/-- The crowd view at the entry to RUN (R160): one entry for each watched station, flags clear, age 0;
none on a node that is not an induction node (R149). -/
def freshCrowdView (c : NodeConfig) : List CrowdEntry :=
  if c.induction then
    ((List.range 32).filter c.watchSet.getLsbD).map fun n =>
      { station := n, crowded := false, silent := false, age := 0 }
  else []

/-- The receiver is switched on in HUNT with the idle count at 0, at a rate (R125). -/
def joinLine (rate : LineRate) (s : State) : State :=
  s.mapLine fun u => { u with receiver := .hunt, buffer := [], rate, idleCount := 0 }

/-- The status timer starts with a period and a STATUS falls due (R164). -/
def startStatus (period : Nat) (s : State) : State :=
  s.mapSupervision fun u =>
    { u with statusTimer := some 0, statusPeriod := period, statusDue := .due }

/-- Entry to RUN (R181). A segment clear input already asserted is also an assertion. -/
def enterRun (c : NodeConfig) (s : State) : State :=
  let t := s.mapStart fun u => { u with node := .run, faultReason := .none, image := c }
  let t :=
    { t with
      outlets := ⟨findPusher c s 0, findPusher c s 1, findPusher c s 2, findPusher c s 3⟩ }
  let t := t.mapInduction fun u => { u with crowdView := freshCrowdView c }
  let t := startStatus c.statusPeriod (joinLine c.rate t)
  if s.start.clearHeld then clearSegment t else arbitrate (decidePermit t)

/-- Entry to FAULT (R182): the status timer starts with its period of 1,000 ms and a STATUS falls due
(R164, R174; log entry 10). The node joins the line where it has a rate to use; otherwise its receiver
stays off and it is silent, so that its STATUS stays due. -/
def enterFault (reason : FaultReason) (rate : Option LineRate) (s : State) : State :=
  let t := s.mapStart fun u => { u with node := .fault, faultReason := reason }
  let t := startStatus Config.faultStatusPeriod t
  match rate with
  | some r => arbitrate (joinLine r t)
  | none => t

/-- POWER_UP_RESET (R175): every block takes its power-up values. -/
def execPowerUpReset (s : State) : Result := .next { State.reset with pending := s.pending }

/-- The levels found at an outlet's inputs. -/
def withLevels (cart hold home : Bool) (o : Outlet) : Outlet :=
  { o with cartPresent := cart, holdSwitch := hold, homeSensor := home }

/-- RESET_RELEASE (R175, R177): the first speed window begins, NOCART follows the cart sensors, and
the strap pins are read; 0 or 31 ends START with fault reason STRAP, and such a node is silent. -/
def execResetRelease (straps : BitVec 5) (pins : PinLevels) (s : State) : Result :=
  .next <|
    if powered s then s
    else
      let t := s.mapStart fun u =>
        { u with resetHeld := false, station := straps.toNat, clearHeld := pins.clear }
      let t := t.mapPosition fun u => { u with windowTimer := some 0 }
      let t :=
        { t with
          outlets :=
            ⟨withLevels pins.carts.q0 pins.holds.q0 pins.homes.q0 s.outlets.q0,
              withLevels pins.carts.q1 pins.holds.q1 pins.homes.q1 s.outlets.q1,
              withLevels pins.carts.q2 pins.holds.q2 pins.homes.q2 s.outlets.q2,
              withLevels pins.carts.q3 pins.holds.q3 pins.homes.q3 s.outlets.q3⟩ }
      if validStation straps.toNat then t else enterFault .strap none t

/-- START_SEQUENCE_END (R176): the image is read and checked, and the node enters RUN or FAULT. The
operand is the bytes the image memory answered. -/
def execStartSequenceEnd (image : List Byte) (s : State) : Result :=
  .next <|
    if powered s = true ∧ s.start.node = .start then
      match imageFault image with
      | .none => enterRun (imageValues image) s
      | reason => enterFault reason (faultRate image) s
    else s

end Sys2Proof.Machine
end

