-- ==== Sys2Proof/Machine/Transmit.lean ====
section
/-! DEFINITION. The transmitter (section 6.4). -/

namespace Sys2Proof.Machine

/-- The back-off length of a frame at station `st` with collision number `c` (R117). -/
def backoffLength (st c : Nat) : Nat := 24 * (1 + (st + c) % 8)

/-- Bit times of idle line: the idle count rises by one in each, to 255 at most, and so does a back-off
count, to its length (R115, R117). -/
def idleBits (n : Nat) (u : LineInterface) : LineInterface :=
  { u with
    idleCount := min Config.idleLimit (u.idleCount + n)
    transmitter :=
      match u.transmitter with
      | .backoff h len count => .backoff h len (min len (count + n))
      | .idle => .idle
      | .waitGap h => .waitGap h
      | .sending h => .sending h }

/-- The transmitter releases the line driver and enters IDLE, and the turn passes (R116, R118, R123). -/
def releaseTransmitter (src : FrameSource) (s : State) : State :=
  s.mapLine fun u => { u with transmitter := .idle, turn := turnAfter src u.turn, idleCount := 0 }

/-- The head of the answer queue leaves it (R120). -/
def popAnswer (s : State) : State := s.mapLine fun u => { u with answers := u.answers.tail }

/-- The head of the notice queue leaves it (R121). -/
def popNotice (s : State) : State := s.mapLine fun u => { u with notices := u.notices.tail }

/-- The end of a sent OFFER frame (R129): an attempt is counted and the reply window starts. The end of
a frame whose offer has ended changes nothing (R134). -/
def offerSent (s : State) : State :=
  if offerStage s = some .onLine then setStage (.listening 0) (countAttempt s) else s

/-- The loss of an OFFER frame by line abort (R129): an attempt with no answer. -/
def offerLost (s : State) : State :=
  if offerStage s = some .onLine then afterAttempt (bump .noAnswers (countAttempt s)) else s

/-- A frame's owner is told that it has been sent (R116). -/
def tellSent (src : FrameSource) (s : State) : State :=
  match src with
  | .answer => popAnswer s
  | .notices => popNotice s
  | .offer => offerSent s
  | .status => setStatusDue .notDue s

/-- A frame's source is told that it was dropped by line abort (R118). -/
def tellAborted (src : FrameSource) (s : State) : State :=
  match src with
  | .answer => popAnswer s
  | .notices => popNotice s
  | .offer => offerLost s
  | .status => setStatusDue .notDue s

/-- GAP_REACHED (R115): the idle count reaches the gap of the frame that waits, and the transmitter
enables the driver and begins to send. The idle bit times that the count still lacks have passed with the
command (DESIGN CHOICE, log entry 4). -/
def execGapReached (s : State) : Result :=
  .next <|
    match s.line.transmitter with
    | .waitGap h => enterWaitGap h (s.mapLine (idleBits (frameGap h - s.line.idleCount)))
    | _ => s

/-- FRAME_SENT (R116): the transmitter goes IDLE, the owner is told, and the arbiter serves the next
frame (R122, R123). -/
def execFrameSent (s : State) : Result :=
  .next <|
    match s.line.transmitter with
    | .sending h => arbitrate (tellSent h.source (releaseTransmitter h.source s))
    | _ => s

/-- A collided frame enters BACKOFF (R117). -/
def enterBackoff (h : HeldFrame) (s : State) : State :=
  let c := h.collisions + 1
  s.mapLine fun u =>
    { u with
      transmitter := .backoff { h with collisions := c } (backoffLength s.start.station c) 0
      idleCount := 0 }

/-- COLLISION (R117, R118): the collision is counted; the sixteenth of a frame is a line abort. -/
def execCollision (s : State) : Result :=
  .next <|
    match s.line.transmitter with
    | .sending h =>
      let t := bumpOutsideFault .collisions s
      if h.collisions + 1 < 16 then enterBackoff h t
      else
        arbitrate <|
          tellAborted h.source (bumpOutsideFault .lineAborts (releaseTransmitter h.source t))
    | _ => s

/-- BACKOFF_END (R117): the back-off count reaches its length, and the same frame enters WAIT-GAP again;
it meets its gap at once where the line has been idle for it (R115). The idle bit times that the back-off
count still lacks have passed with the command (DESIGN CHOICE, log entry 4). -/
def execBackoffEnd (s : State) : Result :=
  .next <|
    match s.line.transmitter with
    | .backoff h len count => enterWaitGap h (s.mapLine (idleBits (len - count)))
    | _ => s

end Sys2Proof.Machine
end

