-- ==== Sys2Proof/Machine/Dispatch.lean ====
section
/-! DEFINITION. The dispatch: one arm per command. -/

namespace Sys2Proof.Machine

/-- The effect of a command on everything but the queue of commands. -/
def exec (i : Instr) (s : State) : Host.Outcome State Fault Refusal :=
  match i with
  | .powerUpReset => Sys2Proof.Machine.execPowerUpReset s
  | .resetRelease straps pins => Sys2Proof.Machine.execResetRelease straps pins s
  | .startSequenceEnd image => Sys2Proof.Machine.execStartSequenceEnd image s
  | .encoderPulse => Sys2Proof.Machine.execEncoderPulse s
  | .speedWindowEnd => Sys2Proof.Machine.execSpeedWindowEnd s
  | .entryEyeArrival => Sys2Proof.Machine.execEntryEyeArrival s
  | .entryEyeTrailingEdge => Sys2Proof.Machine.execEntryEyeTrailingEdge s
  | .mergeArrival coded => Sys2Proof.Machine.execMergeArrival coded s
  | .mergeEyeTrailingEdge => Sys2Proof.Machine.execMergeEyeTrailingEdge s
  | .readerMessage bytes => Sys2Proof.Machine.execReaderMessage bytes s
  | .readerGapTimeout => Sys2Proof.Machine.execReaderGapTimeout s
  | .readWindowOpen ref => Sys2Proof.Machine.execReadWindowOpen ref s
  | .readWindowClose ref => Sys2Proof.Machine.execReadWindowClose ref s
  | .resolutionComplete => Sys2Proof.Machine.execResolutionComplete s
  | .cabinFrame body => Sys2Proof.Machine.execCabinFrame body s
  | .cabinEntryClear => Sys2Proof.Machine.execCabinEntryClear s
  | .cabinEntryCancelled => Sys2Proof.Machine.execCabinEntryCancelled s
  | .cabinEntryHold => Sys2Proof.Machine.execCabinEntryHold s
  | .cabinEntryRedirect => Sys2Proof.Machine.execCabinEntryRedirect s
  | .arming ref => Sys2Proof.Machine.execArming ref s
  | .fire ref => Sys2Proof.Machine.execFire ref s
  | .dwellExpiry k => Sys2Proof.Machine.execDwellExpiry k s
  | .homeTimeout k => Sys2Proof.Machine.execHomeTimeout k s
  | .homeSensorEdge k asserted => Sys2Proof.Machine.execHomeSensorEdge k asserted s
  | .chuteEntry k => Sys2Proof.Machine.execChuteEntry k s
  | .confirmTimeout ref => Sys2Proof.Machine.execConfirmTimeout ref s
  | .cartSwap k => Sys2Proof.Machine.execCartSwap k s
  | .cartRemoval k => Sys2Proof.Machine.execCartRemoval k s
  | .holdSwitchChange k on => Sys2Proof.Machine.execHoldSwitchChange k on s
  | .offerPoint ref => Sys2Proof.Machine.execOfferPoint ref s
  | .segmentExit ref => Sys2Proof.Machine.execSegmentExit ref s
  | .replyWindowExpiry => Sys2Proof.Machine.execReplyWindowExpiry s
  | .repeatIntervalExpiry => Sys2Proof.Machine.execRepeatIntervalExpiry s
  | .offerReceived body => Sys2Proof.Machine.execOfferReceived body s
  | .takeReceived body => Sys2Proof.Machine.execTakeReceived body s
  | .waitReceived body => Sys2Proof.Machine.execWaitReceived body s
  | .spurnReceived body => Sys2Proof.Machine.execSpurnReceived body s
  | .discardTimeout ref => Sys2Proof.Machine.execDiscardTimeout ref s
  | .expectedDeadline => Sys2Proof.Machine.execExpectedDeadline s
  | .codeReceived body => Sys2Proof.Machine.execCodeReceived body s
  | .crowdReceived body => Sys2Proof.Machine.execCrowdReceived body s
  | .statusReceived body => Sys2Proof.Machine.execStatusReceived body s
  | .silenceTimeout station => Sys2Proof.Machine.execSilenceTimeout station s
  | .askStatus body => Sys2Proof.Machine.execAskStatus body s
  | .askCounts body => Sys2Proof.Machine.execAskCounts body s
  | .holdRead body => Sys2Proof.Machine.execHoldRead body s
  | .holdSet body => Sys2Proof.Machine.execHoldSet body s
  | .holdClear body => Sys2Proof.Machine.execHoldClear body s
  | .holdToggle body => Sys2Proof.Machine.execHoldToggle body s
  | .zero body => Sys2Proof.Machine.execZero body s
  | .faultOffer body => Sys2Proof.Machine.execFaultOffer body s
  | .faultCode body => Sys2Proof.Machine.execFaultCode body s
  | .faultAsk body => Sys2Proof.Machine.execFaultAsk body s
  | .frameHead c => Sys2Proof.Machine.execFrameHead c s
  | .characterError c => Sys2Proof.Machine.execCharacterError c s
  | .receiveOverrun body => Sys2Proof.Machine.execReceiveOverrun body s
  | .badFrame body => Sys2Proof.Machine.execBadFrame body s
  | .unactedFrame body => Sys2Proof.Machine.execUnactedFrame body s
  | .gapReached => Sys2Proof.Machine.execGapReached s
  | .frameSent => Sys2Proof.Machine.execFrameSent s
  | .collision => Sys2Proof.Machine.execCollision s
  | .backoffEnd => Sys2Proof.Machine.execBackoffEnd s
  | .statusTimerExpiry => Sys2Proof.Machine.execStatusTimerExpiry s
  | .segmentClearAssert => Sys2Proof.Machine.execSegmentClearAssert s
  | .segmentClearRelease => Sys2Proof.Machine.execSegmentClearRelease s
  | .damagedReaderByte byte stopOk => Sys2Proof.Machine.execDamagedReaderByte byte stopOk s

end Sys2Proof.Machine
end

