-- ==== Sys2Proof/Machine/Idle.lean ====
section
/-! DEFINITION. What happens while no command waits (DESIGN CHOICE, log entry 4): an event that the
state itself makes due takes place; where none is due, one quiet bit time passes, in which no input
changes and no character of another station begins on the line. -/

namespace Sys2Proof.Machine

/-! ## A quiet bit time -/

/-- A running timer runs one millisecond more. -/
def tickTimer (t : Option Nat) : Option Nat := t.map (· + 1)

/-- The bit times of a millisecond at a line rate (R107). -/
def bitsPerMs : LineRate → Nat
  | .kbit125 => 125
  | .kbit250 => 250
  | .kbit500 => 500

/-- A record's confirm and discard timers run (R74, R142). -/
def tickRecord (r : Record) : Record :=
  { r with discardTimer := tickTimer r.discardTimer, confirmTimer := tickTimer r.confirmTimer }

/-- An outlet's dwell and home timers run (R77). -/
def tickOutlet (o : Outlet) : Outlet :=
  { o with dwellTimer := tickTimer o.dwellTimer, homeTimer := tickTimer o.homeTimer }

/-- The reply window or the repeat interval runs (R130). -/
def tickStage : OfferStage → OfferStage
  | .listening n => .listening (n + 1)
  | .resting n => .resting (n + 1)
  | .due => .due
  | .onLine => .onLine
  | .spent => .spent

/-- The age of a watched entry that is not silent rises (R161). DESIGN CHOICE (log entry 21): the age of
the node's own entry stands; R161 ages every entry not silent, and R160 has its own never silent. -/
def tickCrowd (own : Nat) (e : CrowdEntry) : CrowdEntry :=
  if e.silent = true ∨ e.station = own then e else { e with age := e.age + 1 }

/-- One bit time on the line: an idle one, but not while the node itself is sending, nor for a node that
takes no part in the line (R115, R117). -/
def tickLine (u : LineInterface) : LineInterface :=
  match u.receiver, u.transmitter with
  | .off, _ => u
  | _, .sending _ => u
  | _, _ => idleBits 1 u

/-- One millisecond of the timebase: every running timer rises by one. -/
def passMs (s : State) : State :=
  { s with
    position := { s.position with windowTimer := tickTimer s.position.windowTimer }
    track :=
      { s.track with
        table := s.track.table.map tickRecord, readerGap := tickTimer s.track.readerGap }
    outlets := s.outlets.map tickOutlet
    handoff :=
      { s.handoff with
        outbound := s.handoff.outbound.map fun o => { o with stage := tickStage o.stage }
        pendingOffers := s.handoff.pendingOffers.map tickRecord }
    induction :=
      { s.induction with crowdView := s.induction.crowdView.map (tickCrowd s.start.station) }
    supervision := { s.supervision with statusTimer := tickTimer s.supervision.statusTimer } }

/-- One bit time more has run of the millisecond in progress, which may end with it. -/
def tickTimebase (s : State) : State :=
  if s.line.msBits + 1 < bitsPerMs s.line.rate then
    s.mapLine fun u => { u with msBits := u.msBits + 1 }
  else passMs (s.mapLine fun u => { u with msBits := 0 })

/-- One quiet bit time (section 6.1): the line's counts and the timebase. While the reset input is
asserted nothing runs. -/
def passBit (s : State) : State :=
  if powered s then tickTimebase (s.mapLine tickLine) else s

/-! ## The events the state makes due -/

/-- Has a timer run its time? -/
def timerUp (t : Option Nat) (limit : Nat) : Bool :=
  match t with
  | some n => decide (limit ≤ n)
  | none => false

/-- A command, where a condition holds. -/
def dueIf (b : Bool) (c : Instr) : List Instr := if b then [c] else []

/-- The position waits of a record that have been reached (R4), and its confirm timer. -/
def dueOfRecord (s : State) (r : Record) : List Instr :=
  dueIf (decide (r.window = .notOpen) && windowOpenReached s r) (.readWindowOpen r.ref)
    ++ dueIf (decide (r.window = .open) && windowCloseReached s r) (.readWindowClose r.ref)
    ++ dueIf (armingReached s r).isSome (.arming r.ref)
    ++ dueIf (fireReached s r).isSome (.fire r.ref)
    ++ dueIf (match verdictOutlet r.verdict with
        | some k =>
          decide (r.state = .diverting) && timerUp r.confirmTimer (outletImage s k).confirmTimeout
        | none => false) (.confirmTimeout r.ref)
    ++ dueIf (offerPointReached s r) (.offerPoint r.ref)
    ++ dueIf (exitReached s r) (.segmentExit r.ref)

/-- The pusher timers of an outlet that are up (R77, R79). -/
def dueOfOutlet (s : State) (k : OutletNo) : List Instr :=
  let o := s.outlets.get k
  dueIf (outletActive s k && decide (o.pusher = .extended)
      && timerUp o.dwellTimer (outletImage s k).dwell) (.dwellExpiry k)
    ++ dueIf (outletActive s k && decide (o.pusher = .retracting)
      && timerUp o.homeTimer (outletImage s k).homeTimeout) (.homeTimeout k)

/-- The CABIN entry at the head of those not yet applied (R45). -/
def dueCabinEntry (s : State) : List Instr :=
  match s.resolution.cabinEntries with
  | [] => []
  | e :: _ =>
    match e.kind with
    | 0 => [.cabinEntryClear]
    | 1 => [.cabinEntryCancelled]
    | 2 => [.cabinEntryHold]
    | 3 => [.cabinEntryRedirect]
    | _ => []

/-- The Handoff Unit's timers and its deadline (R130, R142, R145). -/
def dueOfHandoff (s : State) : List Instr :=
  dueIf (deadlineReached s).isSome .expectedDeadline
    ++ s.handoff.pendingOffers.flatMap (fun r =>
      dueIf (r.ready && timerUp r.discardTimer s.image.discardTimeout) (.discardTimeout r.ref))
    ++ (match offerStage s with
      | some (.listening n) => dueIf (decide (s.image.replyWindow ≤ n)) .replyWindowExpiry
      | some (.resting n) => dueIf (decide (s.image.repeatInterval ≤ n)) .repeatIntervalExpiry
      | _ => [])

/-- The transmitter's gap and back-off (R115, R117). -/
def dueOfTransmitter (s : State) : List Instr :=
  match s.line.transmitter with
  | .waitGap h => dueIf (decide (frameGap h ≤ s.line.idleCount)) .gapReached
  | .backoff _ len count => dueIf (decide (len ≤ count)) .backoffEnd
  | _ => []

/-- What is due in RUN alone. -/
def dueInRun (s : State) : List Instr :=
  dueCabinEntry s
    ++ s.track.table.flatMap (dueOfRecord s)
    ++ dueOfHandoff s
    ++ dueIf s.resolution.service.isSome .resolutionComplete
    ++ dueOfOutlet s 0 ++ dueOfOutlet s 1 ++ dueOfOutlet s 2 ++ dueOfOutlet s 3
    ++ dueIf (readerFollowed s && timerUp s.track.readerGap Config.readerGapMs) .readerGapTimeout
    ++ s.induction.crowdView.flatMap (fun e =>
      dueIf (canFallSilent s e) (.silenceTimeout e.station))

/-- The events that the state makes due, in the order in which `idle` takes them. -/
def dueEvents (s : State) : List Instr :=
  if powered s then
    (if inRun s then dueInRun s else [])
      ++ dueIf (timerUp s.position.windowTimer Config.windowMs) .speedWindowEnd
      ++ dueIf (timerUp s.supervision.statusTimer s.supervision.statusPeriod) .statusTimerExpiry
      ++ dueOfTransmitter s
  else []

/-- What a step does while no command waits. -/
def idle (s : State) : Result :=
  match dueEvents s with
  | c :: _ => exec c s
  | [] => .next (passBit s)

end Sys2Proof.Machine
end

