-- ==== Sys2Proof/Safety.lean ====
section
/-! DEFINITION. The terms the statements use: the invariants that every step keeps, and the words for
what an event leaves behind. -/

namespace Sys2Proof.Machine

/-! ## Invariants -/

/-- Every collection holds at most what the manual lets it hold, and every number stays in its range
(R7, R22, R29, R44, R84, R120, R121, R139, R141, R157, R166). -/
def Bounded (s : State) : Prop :=
  s.track.table.length ≤ 48 ∧ s.handoff.expected.length ≤ 8 ∧ s.handoff.pendingOffers.length ≤ 4
    ∧ s.line.answers.length ≤ 4 ∧ s.line.notices.length ≤ 8 ∧ s.induction.codes.length ≤ 8
    ∧ s.resolution.exceptions.length ≤ 256 ∧ (∀ c, s.counter c ≤ 65535)
    ∧ (∀ k, (s.outlets.get k).fill ≤ 255) ∧ s.position.windowCount ≤ 4095 ∧ s.track.bagSeq ≤ 2047

/-- The exception table stands in ascending order of cabin, with at most one entry for a cabin
(R44). -/
def ExceptionsAscending (s : State) : Prop :=
  (s.resolution.exceptions.map (·.cabin)).Pairwise (· < ·)

/-- The merge permit output has the value that the conditions of R151 give. -/
def PermitFollowsConditions (s : State) : Prop := s.induction.permit = permitConditions s

/-- No bag ref is held twice in the track table, the expected list and the pending-offer queue
(R19). -/
def RefsHeldOnce (s : State) : Prop := ((heldRecords s).map (·.ref)).Nodup

/-- The resolution request queue holds one request for a record at most, for records of the track table
and the pending-offer queue alone, and is empty while the unit is idle (R52, R58, R59). -/
def RequestsInOrder (s : State) : Prop :=
  s.resolution.requests.Nodup
    ∧ (∀ ref ∈ s.resolution.requests,
        (inTable s ref).isSome = true ∨ (inPendingOffers s ref).isSome = true)
    ∧ (s.resolution.service = none → s.resolution.requests = [])

/-- The transmitter agrees with its sources: a held answer or notice stands at the head of its queue,
the due STATUS is held exactly while the transmitter has it, a frame has met fewer than sixteen
collisions, a back-off has the length of R117, and an OFFER frame that waits for its first gap is that of
an offer ON LINE. -/
def LineAgrees (s : State) : Prop :=
  (∀ h, heldFrame s.line.transmitter = some h →
    (h.source = .answer → s.line.answers.head? = some h.frame)
      ∧ (h.source = .notices → s.line.notices.head? = some h.frame) ∧ h.collisions < 16)
    ∧ (s.supervision.statusDue = .held ↔
        ∃ h, heldFrame s.line.transmitter = some h ∧ h.source = .status)
    ∧ (∀ h len count, s.line.transmitter = .backoff h len count →
        len = 24 * (1 + (s.start.station + h.collisions) % 8) ∧ count ≤ len ∧ 1 ≤ h.collisions)
    ∧ (∀ h, s.line.transmitter = .waitGap h → h.source = .offer → h.collisions = 0 →
        offerStage s = some .onLine)

/-- The receive buffer agrees with the receiver (R109, R110): in BODY it holds the bytes of a frame that has
not ended, at least its head and at most 32; in every other receiver state it is empty. -/
def BufferAgrees (s : State) : Prop :=
  (s.line.receiver = .body →
    1 ≤ s.line.buffer.length ∧ s.line.buffer.length ≤ 32
      ∧ ∀ n, s.line.buffer[3]? = some n → s.line.buffer.length < n.toNat + 5)
    ∧ (s.line.receiver ≠ .body → s.line.buffer = [])

/-- A node whose reset input is asserted is in START (R175). -/
def ResetMeansStart (s : State) : Prop := s.start.resetHeld = true → s.start.node = .start

/-- A node in START keeps its receiver off and its transmitter idle (R176). -/
def StartIsQuiet (s : State) : Prop :=
  s.start.node = .start → s.line.receiver = .off ∧ s.line.transmitter = .idle

/-- The invariant of the collections of records and of the counters. -/
def BagsKept (s : State) : Prop := Bounded s ∧ ExceptionsAscending s ∧ RefsHeldOnce s

/-- A record's state tells which collection holds it (R19). -/
def StatesAgree (s : State) : Prop :=
  (∀ r ∈ s.track.table,
    r.state = .onBelt ∨ r.state = .armed ∨ r.state = .diverting ∨ r.state = .exiting)
    ∧ (∀ r ∈ s.handoff.pendingOffers, r.state = .pending)
    ∧ ∀ r ∈ s.handoff.expected, r.state = .expected

/-- A record at or above the lap limit is stray-bound (R97). -/
def LapsAreMarked (s : State) : Prop :=
  ∀ r ∈ heldRecords s, s.start.image.lapLimit ≤ r.laps → r.stray ≠ none

/-- The invariant of the records (R19, R97), with what its proof needs: a node whose reset input is
asserted is in START (R175), outside RUN the node holds no record (R176, R182), and in RUN the lap limit
is at least 1 (section 5.3). -/
def RecordsKept (s : State) : Prop :=
  BagsKept s ∧ ResetMeansStart s ∧ StatesAgree s ∧ LapsAreMarked s
    ∧ (s.start.node ≠ .run → heldRecords s = [])
    ∧ (s.start.node = .run → 1 ≤ s.start.image.lapLimit)

/-- The invariant of the merge permit, with what its proof needs. -/
def PermitKept (s : State) : Prop :=
  BagsKept s ∧ ResetMeansStart s ∧ PermitFollowsConditions s

/-- The invariant of the request queue, with what its proof needs. -/
def RequestsKept (s : State) : Prop := BagsKept s ∧ RequestsInOrder s

/-- The invariant of the Line Interface, with what its proof needs. -/
def LineKept (s : State) : Prop :=
  ResetMeansStart s ∧ StartIsQuiet s ∧ LineAgrees s ∧ BufferAgrees s

/-- A node in RUN whose segment clear input is held has no record in its three collections (R184,
R185). -/
def ClearingEmpty (s : State) : Prop :=
  ResetMeansStart s
    ∧ (s.start.node = .run → s.start.clearHeld = true →
        s.track.table = [] ∧ s.handoff.expected = [] ∧ s.handoff.pendingOffers = [])

/-! ## Words for what an event leaves -/

/-- A counter's next number (R166): it stops at 65,535. -/
def nextCount (n : Nat) : Nat := if n < 65535 then n + 1 else n

/-- The Supervision Unit once a counter has risen (R166, R168). -/
def raised (c : Counter) (u : SupervisionUnit) : SupervisionUnit :=
  { u with
    counters := u.counters.set c (nextCount (u.counters.get c))
    flags :=
      { u.flags with countLimit := u.flags.countLimit || decide (u.counters.get c = 65534) } }

/-- The Line Interface once the frame in progress has ended (R110): HUNT, the buffer empty. -/
def huntAgain (l : LineInterface) : LineInterface :=
  { l with receiver := .hunt, buffer := [], idleCount := 0 }

/-- The node once the frame in progress has ended, and nothing else has happened. -/
def frameOver (s : State) : State := { s with line := huntAgain s.line }

/-- The row of the table for a good frame that ends with these bytes (R103, R111, R170, R171, R183; log
entry 14 for an ASK's page above 4 and a HOLD's operation above 3). -/
def frameRow (s : State) (f : InFrame) (rest : List Byte) : Instr :=
  if f.source = s.start.station then .unactedFrame rest
  else if s.start.node = .fault then
    if f.dest = s.start.station then
      match f.kind with
      | .offer => .faultOffer rest
      | .code => .faultCode rest
      | .ask => .faultAsk rest
      | _ => .unactedFrame rest
    else .unactedFrame rest
  else
    match f.kind with
    | .offer => .offerReceived rest
    | .take => .takeReceived rest
    | .wait => .waitReceived rest
    | .spurn => .spurnReceived rest
    | .cabin => .cabinFrame rest
    | .code => .codeReceived rest
    | .crowd => .crowdReceived rest
    | .status => .statusReceived rest
    | .zero => .zero rest
    | .ask => if payloadByte f.payload 0 = 0 then .askStatus rest else .askCounts rest
    | .hold =>
      match payloadByte f.payload 0 with
      | 1 => .holdSet rest
      | 2 => .holdClear rest
      | 3 => .holdToggle rest
      | _ => .holdRead rest
    | .missing | .stray | .holdAnswer | .counts => .unactedFrame rest

/-- A record refused by an Outlet Unit of a station (R18, R68, R75, R82): ON-BELT, verdict PASS and
fixed, no fire position, and one more entry among the four most recent refusals. -/
def refusedAs (station : Nat) (cause : RefusalCause) (r : Record) : Record :=
  { r with
    state := .onBelt, verdict := .pass, verdictFixed := true, firePosition := none,
    confirmTimer := none
    refusals := (r.refusals ++ [RefusalEntry.mk station cause]).drop (r.refusals.length + 1 - 4) }

/-- What the arbiter may change (R122, R123, R115): what the transmitter holds, the idle count, the stage
of the outbound offer, and whether the due STATUS is held. -/
def ArbiterOnly (u t : State) : Prop :=
  t =
      { u with
        line := { u.line with transmitter := t.line.transmitter, idleCount := t.line.idleCount }
        handoff := { u.handoff with outbound := t.handoff.outbound }
        supervision := { u.supervision with statusDue := t.supervision.statusDue } }
    ∧ t.handoff.outbound.map (fun o => (o.ref, o.attempts))
      = u.handoff.outbound.map fun o => (o.ref, o.attempts)

/-- A frame has entered WAIT-GAP from a line with `n` idle bit times (R115): at its gap or beyond, 6 bit
times for an answer and 24 for any other frame, it is being sent and the idle count is 0; below, it
waits and the count stands. -/
def GapEntered (h : HeldFrame) (n : Nat) (l : LineInterface) : Prop :=
  ((if h.source = .answer then 6 else 24) ≤ n → l.transmitter = .sending h ∧ l.idleCount = 0)
    ∧ (n < (if h.source = .answer then 6 else 24) → l.transmitter = .waitGap h ∧ l.idleCount = n)

/-- An OFFER frame of the outbound offer is held in WAIT-GAP or BACKOFF: the frame that is withdrawn when
the offer ends (R119, R134). While the offer is ON LINE a held OFFER frame is its own; where the offer
was spent while its frame was being sent, the frame is told by the bag ref in its first two bytes (log
entry 20). -/
def OfferFrameWaits (s : State) : Prop :=
  ∃ o h, s.handoff.outbound = some o ∧ h.source = .offer
    ∧ (o.stage = .onLine ∨ (o.stage = .spent ∧ payloadRef h.frame.payload = o.ref))
    ∧ (s.line.transmitter = .waitGap h ∨ ∃ len count, s.line.transmitter = .backoff h len count)

/-- A resolution request for a record has been raised (R52, R58, R61): it waits in the queue, or the unit,
idle until then, serves it. An older resolution in service stays, and the request waits behind it. -/
def Requested (s t : State) (ref : BagRef) : Prop :=
  (s.resolution.service ≠ none → ref ∈ t.resolution.requests)
    ∧ (ref ∈ t.resolution.requests ∨ ∃ v, t.resolution.service = some v ∧ v.owner = some ref)

/-- The offer of `s` has ended in `u`, before the arbiter goes on (R119, R123): its frame in WAIT-GAP or
BACKOFF has left the transmitter, which is IDLE, and the turn has passed to the notices; any other frame,
one being sent among them, stays where it was, and so does the turn. -/
def OfferWithdrawn (s u : State) : Prop :=
  (OfferFrameWaits s → u.line.transmitter = .idle ∧ u.line.turn = .notices)
    ∧ (¬OfferFrameWaits s →
        u.line.transmitter = s.line.transmitter ∧ u.line.turn = s.line.turn)

/-- Does a record carry this tag: the same cabin and the same letter (R34)? -/
def twin (tag : Option Tag) (x : Record) : Bool :=
  decide (tag ≠ none
    ∧ x.tag.map (fun g => (g.cabin, g.letter)) = tag.map (fun g => (g.cabin, g.letter)))

/-- A record marked DUPLICATE; one already stray-bound keeps the cause it has (R17, R34). -/
def asDuplicate (x : Record) : Record :=
  { x with stray := if x.stray = none then some .duplicate else x.stray }

/-- A record of the expected list marked DUPLICATE: where the mark is new, its resolution becomes due and
its verdict UNRESOLVED (R17, R34, R59). -/
def asDuplicateExpected (x : Record) : Record :=
  if x.stray = none then
    { x with stray := some .duplicate, resolutionDue := true, verdict := .unresolved }
  else x

/-- A sequence is the first free one from the bag sequence: every candidate before it is held (R29). -/
def FirstFree (s : State) (seq : Nat) : Prop :=
  ∃ n ≤ 60, seq = (s.track.bagSeq + n) % 2048
    ∧ ∀ m < n,
      (heldRecord s ⟨s.start.station, (s.track.bagSeq + m) % 2048⟩).isSome = true

/-- An entry of a CABIN frame that no row applies: its kind is above 3, or its cabin lies outside
1000..19999 (R46; log entry 8). -/
def rowless (e : CabinEntry) : Bool :=
  decide (3 < e.kind ∨ e.cabin < 1000 ∨ 19999 < e.cabin)

/-- A counter's Supervision Unit after `n` rises (R166). -/
def raisedTimes (c : Counter) (n : Nat) (u : SupervisionUnit) : SupervisionUnit := (raised c)^[n] u

/-- The first five bytes of an OFFER, a STRAY notice and a MISSING notice (section 7.2, R101): the bag ref,
inducting station in the high five bits and sequence in the low eleven; the cabin, 0 when absent; the
tag byte, letter in its low three bits and tag status (0 NONE, 1 READ, 2 CODED) in the next two. -/
def TagPlaces (r : Record) (p : List Byte) : Prop :=
  (p.getD 0 0).toNat * 256 + (p.getD 1 0).toNat = (r.ref.station * 2048 + r.ref.seq) % 65536
    ∧ (p.getD 2 0).toNat * 256 + (p.getD 3 0).toNat = (r.tag.elim 0 (·.cabin)) % 65536
    ∧ p.getD 4 0 = byteOf (r.tag.elim 0 fun g => g.letter + if g.source = .read then 8 else 16)

/-- A refusal list from byte `k` on (section 7.2): the number of refusals, then four entries of two bytes,
station and cause by its code, oldest first, zero beyond their number. -/
def RefusalPlaces (k : Nat) (l : List RefusalEntry) (p : List Byte) : Prop :=
  p.getD k 0 = byteOf l.length
    ∧ (∀ i < 4, ∀ e, l[i]? = some e →
      p.getD (k + 1 + 2 * i) 0 = byteOf e.station
        ∧ ∀ n c, [RefusalCause.full, .held, .noCart, .faulted, .busy, .gap, .oversize,
            .pushMiss][n]? = some c → e.cause = c → p.getD (k + 2 + 2 * i) 0 = byteOf (n + 1))
    ∧ ∀ i < 4, l.length ≤ i → p.getD (k + 1 + 2 * i) 0 = 0 ∧ p.getD (k + 2 + 2 * i) 0 = 0

/-- The stray causes in the order of their codes, from 1 (section 5.1). -/
def strayCauses : List StrayCause :=
  [.noread, .anon, .cancelled, .hold, .duplicate, .laps, .doubt, .oversize]

/-- The seventeen bytes of a STRAY notice (R101): bag ref, cabin and tag byte; the stray cause by its code
of section 5.1, laps, relabelled; the refusals. -/
def StrayPayloadOf (r : Record) (p : List Byte) : Prop :=
  p.length = 17 ∧ TagPlaces r p
    ∧ (r.stray = none → p.getD 5 0 = 0)
    ∧ (∀ n c, strayCauses[n]? = some c → r.stray = some c → p.getD 5 0 = byteOf (n + 1))
    ∧ p.getD 6 0 = byteOf r.laps ∧ p.getD 7 0 = (if r.relabelled then 1 else 0)
    ∧ RefusalPlaces 8 r.refusals p

/-- The eighteen bytes of an OFFER (section 7.2): bag ref, cabin and tag byte; the flags byte (bit 0
stray-bound, bit 1 length doubt, bit 2 relabelled, bits 3 to 6 the stray cause by its code, 0 when not
stray-bound, bit 7 length present); laps; the length in two bytes, 0 when absent; the refusals. -/
def OfferPayloadOf (r : Record) (p : List Byte) : Prop :=
  p.length = 18 ∧ TagPlaces r p
    ∧ (∀ f : Byte, f = p.getD 5 0 →
      f.getLsbD 0 = r.stray.isSome ∧ f.getLsbD 1 = r.lengthDoubt ∧ f.getLsbD 2 = r.relabelled
        ∧ (r.stray = none → f.toNat / 8 % 16 = 0)
        ∧ (∀ n c, strayCauses[n]? = some c → r.stray = some c → f.toNat / 8 % 16 = n + 1)
        ∧ f.getLsbD 7 = r.length.isSome)
    ∧ p.getD 6 0 = byteOf r.laps
    ∧ (p.getD 7 0).toNat * 256 + (p.getD 8 0).toNat = r.length.getD 0 % 65536
    ∧ RefusalPlaces 9 r.refusals p

/-! ## The configuration image (section 10.3) -/

/-- Every field that section 10.3 marks for checking holds a value of its range or a code of its list
(R179, R9, R41, R149). `b` gives the image's bytes and `w` its two-byte fields, high byte first. -/
def ImageRanges (b w : Nat → Nat) : Prop :=
  (b 1 = 128 ∨ b 1 = 64 ∨ b 1 = 32)
    ∧ (∀ i ∈ [2, 3, 4, 5], 1 ≤ b i ∧ b i ≤ 30)
    ∧ b 6 ≤ 1 ∧ (1 ≤ b 7 ∧ b 7 ≤ 7) ∧ b 8 ≤ 1
    ∧ (b 8 = 1 → b 9 ≤ 3 ∧ 1 ≤ w 10)
    ∧ b 14 ≤ 50 ∧ 1 ≤ w 15 ∧ (1 ≤ w 23 ∧ w 23 < w 25 ∧ w 25 ≤ 16380) ∧ w 27 ≤ 16380
    ∧ 1 ≤ b 29 ∧ (100 ≤ w 30 ∧ w 30 ≤ 2000) ∧ 1 ≤ w 32 ∧ 1 ≤ w 34
    ∧ (1 ≤ b 36 ∧ b 36 ≤ 20) ∧ (1 ≤ b 37 ∧ b 37 ≤ 20) ∧ (1 ≤ b 38 ∧ b 38 ≤ 15)
    ∧ 1 ≤ w 39 ∧ (5 ≤ b 41 ∧ b 41 ≤ 200) ∧ b 42 ≤ 1
    ∧ (b 42 = 1 → 1 ≤ w 43 ∧ b 47 < 128 ∧ b 50 % 2 = 0 ∧ 1 ≤ b 51 ∧ b 51 ≤ 10)
    ∧ (1 ≤ b 52 ∧ b 52 ≤ 48) ∧ b 53 < b 52
    ∧ (∀ k < 4, b (54 + 18 * k) ≤ 2
      ∧ (b (54 + 18 * k) ≠ 0 →
        1 ≤ w (55 + 18 * k) ∧ 1 ≤ w (57 + 18 * k)
          ∧ w (59 + 18 * k) ≤ 2000 ∧ w (61 + 18 * k) ≤ 2000 ∧ w (63 + 18 * k) ≤ 2000
          ∧ (20 ≤ w (65 + 18 * k) ∧ w (65 + 18 * k) ≤ 2000)
          ∧ (20 ≤ w (67 + 18 * k) ∧ w (67 + 18 * k) ≤ 5000)
          ∧ (100 ≤ w (69 + 18 * k) ∧ w (69 + 18 * k) ≤ 10000)
          ∧ (1 ≤ b (71 + 18 * k) ∧ b (71 + 18 * k) ≤ 250)))
    ∧ ∀ j < 8, b (130 + 9 * j) ≤ 3 ∧ b (131 + 9 * j) ≤ 1
      ∧ (b (131 + 9 * j) = 1 →
        b (132 + 9 * j) ≤ 99 ∧ b (133 + 9 * j) ≤ 99 ∧ b (134 + 9 * j) ≤ 3)

/-- The distances of an image fit a segment (R180). -/
def ImageGeometry (c : NodeConfig) : Prop :=
  (∀ k, (c.outlets.get k).role ≠ .unused →
    c.armDistance + (c.outlets.get k).maxLength ≤ (c.outlets.get k).distance
      ∧ (c.outlets.get k).distance + (c.outlets.get k).maxLength < c.offerDistance)
    ∧ c.offerDistance ≤ c.segmentLength
    ∧ (c.induction = true →
      (∀ b, c.mergeWindow + minGap c b < c.mergeDistance)
        ∧ (c.readerFitted = true → c.mergeDistance < c.readerDistance))

/-- The windows of an image agree with its outlets (R41). -/
def ImageWindows (c : NodeConfig) : Prop :=
  (∀ x ∈ c.windows.drop 4, x.carve = none)
    ∧ ∀ x ∈ c.windows, x.base ≤ x.limit →
      (c.outlets.get x.outlet).role ≠ .unused
        ∧ ∀ v, x.carve = some v → (c.outlets.get v.outlet).role ≠ .unused

/-- Where the image holds each value (section 10.3): `b` gives its bytes, `w` its two-byte fields. -/
def ImagePlaces (b w : Nat → Nat) (c : NodeConfig) : Prop :=
  ((b 1 = 128 → c.rate = .kbit125) ∧ (b 1 = 64 → c.rate = .kbit250) ∧ (b 1 = 32 → c.rate = .kbit500))
    ∧ c.manifest = b 2 ∧ c.coding = b 3 ∧ c.supervisory = b 4 ∧ c.downstream = b 5
    ∧ c.loopHead = decide (b 6 = 1) ∧ c.lapLimit = b 7
    ∧ c.readerFitted = decide (b 8 = 1) ∧ c.readerRate = b 9
    ∧ c.readerDistance = w 10 ∧ c.readerLatency = w 12 ∧ c.tolerance = b 14 ∧ c.armDistance = w 15
    ∧ c.gapSlow = w 17 ∧ c.gapNormal = w 19 ∧ c.gapFast = w 21
    ∧ c.up01 = w 23 ∧ c.up12 = w 25 ∧ c.hysteresis = w 27 ∧ c.stopThreshold = b 29
    ∧ c.statusPeriod = w 30 ∧ c.offerDistance = w 32 ∧ c.segmentLength = w 34
    ∧ c.replyWindow = b 36 ∧ c.repeatInterval = b 37 ∧ c.attemptLimit = b 38
    ∧ c.expectDistance = w 39 ∧ c.discardTimeout = b 41
    ∧ c.induction = decide (b 42 = 1) ∧ c.mergeDistance = w 43 ∧ c.mergeWindow = w 45
    ∧ c.watchSet.toNat = w 47 * 65536 + w 49 ∧ c.silenceTimeout = b 51
    ∧ c.highWater = b 52 ∧ c.lowWater = b 53
    ∧ (∀ k : OutletNo, c.outlets.get k =
      { role := if b (54 + 18 * k) = 1 then .deck else if b (54 + 18 * k) = 2 then .stray else .unused
        distance := w (55 + 18 * k), maxLength := w (57 + 18 * k), leadSlow := w (59 + 18 * k)
        leadNormal := w (61 + 18 * k), leadFast := w (63 + 18 * k), dwell := w (65 + 18 * k)
        homeTimeout := w (67 + 18 * k), confirmTimeout := w (69 + 18 * k)
        capacity := b (71 + 18 * k) })
    ∧ c.windows.length = 8
    ∧ ∀ j < 8, ∃ x, c.windows[j]? = some x
      ∧ x.base = w (126 + 9 * j) ∧ x.limit = w (128 + 9 * j) ∧ x.outlet.val = b (130 + 9 * j) % 4
      ∧ (b (131 + 9 * j) ≠ 1 → x.carve = none)
      ∧ (b (131 + 9 * j) = 1 → ∃ v, x.carve = some v
        ∧ v.low = b (132 + 9 * j) ∧ v.high = b (133 + 9 * j) ∧ v.outlet.val = b (134 + 9 * j) % 4)

/-! ## What is due while no command waits (log entry 4) -/

/-- A timer that runs has run its time. -/
def TimeUp (timer : Option Nat) (limit : Nat) : Prop := ∃ n, timer = some n ∧ limit ≤ n

/-- The events that the state itself makes due: a position wait that has been reached (R4), a timer that
has run its time, the CABIN entry at the head of those not yet applied, the end of the resolution in
service, and the transmitter's gap and back-off. -/
inductive EventDue (s : State) : Instr → Prop where
  | readWindowOpen (r : Record) (p : Position) : s.start.node = .run →
      s.start.image.readerFitted = true → r ∈ s.track.table → r.window = .notOpen →
      r.lead = some p → reached s (ahead p s.start.image.readerDistance) = true →
      EventDue s (.readWindowOpen r.ref)
  | readWindowClose (r : Record) (p : Position) : s.start.node = .run →
      s.start.image.readerFitted = true → r ∈ s.track.table → r.window = .open →
      r.trail = some p →
      reached s (ahead p (s.start.image.readerDistance + s.start.image.readerLatency)) = true →
      EventDue s (.readWindowClose r.ref)
  | arming (r : Record) (p : Position) (k : OutletNo) : s.start.node = .run → r ∈ s.track.table →
      r.state = .onBelt → r.verdictFixed = false → verdictOutlet r.verdict = some k →
      s.track.openMerge ≠ some r.ref → r.lead = some p →
      reached s (behind (ahead p (s.start.image.outlets.get k).distance)
        s.start.image.armDistance) = true →
      EventDue s (.arming r.ref)
  | fire (r : Record) (p : Position) (k : OutletNo) : s.start.node = .run → r ∈ s.track.table →
      r.state = .armed → verdictOutlet r.verdict = some k → r.firePosition = some p →
      reached s p = true → EventDue s (.fire r.ref)
  | confirmTimeout (r : Record) (k : OutletNo) : s.start.node = .run → r ∈ s.track.table →
      r.state = .diverting → verdictOutlet r.verdict = some k →
      TimeUp r.confirmTimer (s.start.image.outlets.get k).confirmTimeout →
      EventDue s (.confirmTimeout r.ref)
  | offerPoint (r : Record) (p : Position) : s.start.node = .run → r ∈ s.track.table →
      r.state = .onBelt ∨ r.state = .diverting → r.pastOfferPoint = false → r.lead = some p →
      reached s (ahead p s.start.image.offerDistance) = true → EventDue s (.offerPoint r.ref)
  | segmentExit (r : Record) (p : Position) : s.start.node = .run → r ∈ s.track.table →
      r.state = .exiting → r.trail = some p →
      reached s (ahead p s.start.image.segmentLength) = true → EventDue s (.segmentExit r.ref)
  | expectedDeadline (r : Record) (rest : List Record) (p : Position) : s.start.node = .run →
      s.handoff.expected = r :: rest → r.deadline = some p → reached s p = true →
      EventDue s .expectedDeadline
  | discardTimeout (r : Record) : s.start.node = .run → r ∈ s.handoff.pendingOffers →
      r.ready = true → TimeUp r.discardTimer s.start.image.discardTimeout →
      EventDue s (.discardTimeout r.ref)
  | replyWindowExpiry (n : Nat) : s.start.node = .run → offerStage s = some (.listening n) →
      s.start.image.replyWindow ≤ n → EventDue s .replyWindowExpiry
  | repeatIntervalExpiry (n : Nat) : s.start.node = .run → offerStage s = some (.resting n) →
      s.start.image.repeatInterval ≤ n → EventDue s .repeatIntervalExpiry
  | cabinEntry (e : CabinEntry) (rest : List CabinEntry) (c : Instr) : s.start.node = .run →
      s.resolution.cabinEntries = e :: rest →
      (e.kind = 0 ∧ c = .cabinEntryClear ∨ e.kind = 1 ∧ c = .cabinEntryCancelled
        ∨ e.kind = 2 ∧ c = .cabinEntryHold ∨ e.kind = 3 ∧ c = .cabinEntryRedirect) →
      EventDue s c
  | resolutionComplete (v : Service) : s.start.node = .run → s.resolution.service = some v →
      EventDue s .resolutionComplete
  | dwellExpiry (k : OutletNo) : s.start.node = .run →
      (s.start.image.outlets.get k).role ≠ .unused → (s.outlets.get k).pusher = .extended →
      TimeUp (s.outlets.get k).dwellTimer (s.start.image.outlets.get k).dwell →
      EventDue s (.dwellExpiry k)
  | homeTimeout (k : OutletNo) : s.start.node = .run →
      (s.start.image.outlets.get k).role ≠ .unused → (s.outlets.get k).pusher = .retracting →
      TimeUp (s.outlets.get k).homeTimer (s.start.image.outlets.get k).homeTimeout →
      EventDue s (.homeTimeout k)
  | readerGapTimeout : s.start.node = .run → s.start.image.readerFitted = true →
      TimeUp s.track.readerGap 5 → EventDue s .readerGapTimeout
  | silenceTimeout (e : CrowdEntry) : s.start.node = .run → e ∈ s.induction.crowdView →
      e.silent = false → e.station ≠ s.start.station →
      s.start.image.silenceTimeout * 1000 ≤ e.age → EventDue s (.silenceTimeout e.station)
  | speedWindowEnd : TimeUp s.position.windowTimer 20 → EventDue s .speedWindowEnd
  | statusTimerExpiry : TimeUp s.supervision.statusTimer s.supervision.statusPeriod →
      EventDue s .statusTimerExpiry
  | gapReached (h : HeldFrame) : s.line.transmitter = .waitGap h →
      (if h.source = .answer then 6 else 24) ≤ s.line.idleCount → EventDue s .gapReached
  | backoffEnd (h : HeldFrame) (len count : Nat) : s.line.transmitter = .backoff h len count →
      len ≤ count → EventDue s .backoffEnd

/-- A record without its memory of having held the outbound offer: what another record's leaving may
change of it (R128). -/
def apartFromOffer (r : Record) : Record := { r with heldOffer := false }

/-- Two lists hold the same records in the same order, apart from who has held the outbound offer. -/
def SameBags (l m : List Record) : Prop := l.map apartFromOffer = m.map apartFromOffer

/-- A record has left the track table as ABANDONED (R127, R134, R128, R119): the abandoned counter rises.
Where it held the outbound offer, or none was held, the offer passes to the front-most EXITING record
that has not held it, with no attempt made, and an OFFER frame of its own in WAIT-GAP or BACKOFF is
withdrawn; another record's offer stays. -/
def LeavesAbandoned (s t : State) (r : Record) : Prop :=
  ∃ left, left = s.track.table.filter (fun x => decide (x.ref ≠ r.ref))
    ∧ SameBags t.track.table left
    ∧ heldRecord t r.ref = none ∧ r.ref ∉ t.resolution.requests
    ∧ ((∀ o, s.handoff.outbound = some o → o.ref = r.ref) →
        t.handoff.outbound.map (fun x => (x.ref, x.attempts))
          = (left.find? fun x => decide (x.state = .exiting) && !x.heldOffer).map fun x => (x.ref, 0))
    ∧ (∀ o, s.handoff.outbound = some o → o.ref ≠ r.ref →
        t.handoff.outbound.map (fun x => (x.ref, x.attempts)) = some (o.ref, o.attempts))
    ∧ (∀ o, s.handoff.outbound = some o → o.ref = r.ref →
        ∃ u, t = arbitrate u ∧ OfferWithdrawn s u)
    ∧ t.counter .abandoned = nextCount (s.counter .abandoned)
    ∧ t.counter .missing = s.counter .missing
    ∧ t.induction.permit = permitConditions t
    ∧ (∀ k, t.outlets.get k = { s.outlets.get k with
        diverting := (s.outlets.get k).diverting.filter fun x => decide (x ≠ r.ref) })
    ∧ t.handoff.expected = s.handoff.expected
    ∧ t.handoff.pendingOffers = s.handoff.pendingOffers
    ∧ t.resolution.exceptions = s.resolution.exceptions
    ∧ t.position = s.position ∧ t.start = s.start

/-- What a node may be asked to carry in an OFFER (section 2.1): a record's carried fields in range. -/
def Carryable (r : Record) : Prop :=
  validStation r.ref.station = true ∧ r.ref.seq ≤ 2047 ∧ r.laps ≤ 7
    ∧ (∀ t, r.tag = some t → validCabin t.cabin = true ∧ t.letter ≤ 7)
    ∧ (∀ n, r.length = some n → n ≤ 65535)
    ∧ r.refusals.length ≤ 4 ∧ ∀ e ∈ r.refusals, validStation e.station = true

end Sys2Proof.Machine
end

