-- ==== Sys2Proof/Certificates/Slice0/Obligations.lean ====
section
/-! DEFINITION. The statements for the provers, listed in `OBLIGATIONS.json` in the order they stand here.
Where a statement has several parts, each part is closed and stands in its own parentheses. -/

open Sys2Proof Sys2Proof.Machine

/-! ## The step and the queue of commands -/

/-- A step takes the command at the front of the queue and carries it out on the state with the rest of the
queue; every command answers a next state and leaves the queue as it found it. -/
def Obligations.StepTakesFrontCommand : Prop :=
  ∀ (c : Instr) (rest : List Instr) (s : State), s.pending = c :: rest →
    step s = exec c { s with pending := rest }
      ∧ ∃ t, step s = .next t ∧ t.pending = rest

/-- With no command waiting (the model's choice, log entry 4): in reset nothing happens; where the state
makes events due, one of them takes place, and `EventDue` says which are due: the position waits reached
(R4), the timers that have run their time (R6, R31, R74, R77, R79, R130, R142, R161, R164), a CABIN
entry not yet applied, a resolution in service, and the transmitter's gap and back-off (R115, R117).
Where none is due one bit time passes: it raises the idle count by one, to 255 at most, and a back-off
count by one, but not while the node sends or where it takes no part in the line (R115, R117). Every
125, 250 or 500 bit times, by the line rate (R107), a millisecond has run, and every running timer rises
by one: the speed window, the reader's gap, the confirm and discard timers of the records, the dwell and
home timers, the reply window or the repeat interval of the offer, the ages of the watched stations that
are not silent (that the age of the node's own entry stands is the model's choice, log entry 21), the
status timer. Nothing else changes. -/
def Obligations.EmptyQueueIdles : Prop :=
  ∀ s : State, s.pending = [] →
    (s.start.resetHeld = true → step s = .next s)
      ∧ (s.start.resetHeld = false → (∃ c, EventDue s c) → ∃ c, EventDue s c ∧ step s = exec c s)
      ∧ (s.start.resetHeld = false → (∀ c, ¬EventDue s c) → ∀ (older : Record → Record) (bits : Nat),
          older = (fun r => { r with
            confirmTimer := r.confirmTimer.map (· + 1), discardTimer := r.discardTimer.map (· + 1) }) →
          bits = (match s.line.rate with | .kbit125 => 125 | .kbit250 => 250 | .kbit500 => 500) →
          ∃ t, step s = .next t
            ∧ t.line = { s.line with
                idleCount := t.line.idleCount, transmitter := t.line.transmitter
                msBits := if s.line.msBits + 1 < bits then s.line.msBits + 1 else 0 }
            ∧ (s.line.receiver = .off ∨ (∃ h, s.line.transmitter = .sending h) →
              t.line.idleCount = s.line.idleCount ∧ t.line.transmitter = s.line.transmitter)
            ∧ (s.line.receiver ≠ .off → (∀ h, s.line.transmitter ≠ .sending h) →
              t.line.idleCount = min 255 (s.line.idleCount + 1)
                ∧ (∀ h len n, s.line.transmitter = .backoff h len n →
                  t.line.transmitter = .backoff h len (min len (n + 1)))
                ∧ ((∀ h len n, s.line.transmitter ≠ .backoff h len n) →
                  t.line.transmitter = s.line.transmitter))
            ∧ (s.line.msBits + 1 < bits → t = { s with line := t.line })
            ∧ (bits ≤ s.line.msBits + 1 →
              t = { s with
                position := { s.position with windowTimer := s.position.windowTimer.map (· + 1) }
                track := { s.track with
                  table := s.track.table.map older, readerGap := s.track.readerGap.map (· + 1) }
                outlets := s.outlets.map fun o => { o with
                  dwellTimer := o.dwellTimer.map (· + 1), homeTimer := o.homeTimer.map (· + 1) }
                line := t.line
                handoff := { s.handoff with
                  outbound := t.handoff.outbound
                  pendingOffers := s.handoff.pendingOffers.map older }
                induction := { s.induction with
                  crowdView := s.induction.crowdView.map fun e =>
                    if e.silent = true ∨ e.station = s.start.station then e
                    else { e with age := e.age + 1 } }
                supervision := { s.supervision with
                  statusTimer := s.supervision.statusTimer.map (· + 1) } }
              ∧ t.handoff.outbound = s.handoff.outbound.map (fun o => { o with
                stage := match o.stage with
                  | .listening n => .listening (n + 1)
                  | .resting n => .resting (n + 1)
                  | other => other })))

/-! ## Invariants -/

/-- Right after power-up reset every invariant of `Safety` holds (the permit's and the transmitter's among
them), and the node is in START with the reset input asserted. -/
def Obligations.ResetMeetsTheInvariants : Prop :=
  BagsKept State.reset ∧ PermitKept State.reset ∧ RequestsKept State.reset ∧ LineKept State.reset
    ∧ ClearingEmpty State.reset ∧ RecordsKept State.reset
    ∧ State.reset.start.node = .start ∧ State.reset.start.resetHeld = true

/-- Every step keeps the bounds of all collections and counters, the ascending order of the exception table,
and that no bag ref is held twice (R19, R22, R44). Every step keeps the records' own invariant: each
record's state tells the collection that holds it (R19), and a record whose laps are at or above the lap
limit is stray-bound (R97). -/
def Obligations.StepsKeepBags : Prop :=
  (∀ s t : State, BagsKept s → step s = .next t → BagsKept t)
    ∧ ∀ s t : State, RecordsKept s → step s = .next t → RecordsKept t

/-- Every step leaves the merge permit output at the value that the conditions of R151 give. -/
def Obligations.StepsKeepThePermit : Prop :=
  ∀ s t : State, PermitKept s → step s = .next t → PermitKept t

/-- Segment clear held means no records (R184, R185 on the way in): while a node in RUN is clearing it holds
no record of the belt, at every step from a state in which it holds none. -/
def Obligations.ClearingNodeHoldsNoBag : Prop :=
  ∀ s t : State, ClearingEmpty s → step s = .next t → ClearingEmpty t

/-- Every step keeps the discipline of the resolution requests: one for a record at most, for records of the
track table or the pending-offer queue, and none waiting while the unit is idle. -/
def Obligations.StepsKeepRequests : Prop :=
  ∀ s t : State, RequestsKept s → step s = .next t → RequestsKept t

/-- Every step keeps the transmitter in agreement with the sources of its frames, and the receive buffer
with the receiver (R109, R110): in BODY it holds the bytes of a frame that has not ended, from 1 to 32,
and in every other receiver state it is empty. -/
def Obligations.StepsKeepTheLine : Prop :=
  ∀ s t : State, LineKept s → step s = .next t → LineKept t

/-! ## Positions, counters, queues and the arbiter -/

/-- The distance from `a` to `b` (R3). -/
def Obligations.DistanceIsSigned : Prop :=
  ∀ a b : Position, ∀ d : Nat, d = (b.toNat + 16777216 - a.toNat) % 16777216 →
    (d ≤ 8388607 → dist a b = d) ∧ (8388608 ≤ d → dist a b = (d : Int) - 16777216)

/-- A counter's rise (R166, R168): it adds one, stops at 65,535, and sets COUNT LIMIT at the rise to 65,535
alone; nothing else of the node changes. -/
def Obligations.CountersRiseAndStop : Prop :=
  ∀ (c : Counter) (s : State),
    (∀ d, d ≠ c → (bump c s).counter d = s.counter d)
      ∧ (bump c s).counter c = (if s.counter c < 65535 then s.counter c + 1 else s.counter c)
      ∧ ((bump c s).supervision.flags.countLimit = true ↔
          s.supervision.flags.countLimit = true ∨ s.counter c = 65534)
      ∧ bump c s = { s with
          supervision := { s.supervision with
            counters := (bump c s).supervision.counters
            flags := { s.supervision.flags with
              countLimit := (bump c s).supervision.flags.countLimit } } }

/-- The answer queue and the notice queue (R120, R121): a frame goes to the tail, and a full queue drops it,
counting it (but not in FAULT) and setting QUEUE DROP. -/
def Obligations.FullQueuesDropFrames : Prop :=
  ∀ (f : OutFrame) (s : State),
    (s.line.answers.length < 4 →
        queueAnswer f s = { s with line := { s.line with answers := s.line.answers ++ [f] } })
      ∧ (s.line.notices.length < 8 →
        queueNotice f s = { s with line := { s.line with notices := s.line.notices ++ [f] } })
      ∧ (4 ≤ s.line.answers.length →
        (queueAnswer f s).line = s.line ∧ (queueAnswer f s).supervision.flags.queueDrop = true
          ∧ (queueAnswer f s).counter .droppedNotices
            = if s.start.node = .fault then s.counter .droppedNotices
              else nextCount (s.counter .droppedNotices))
      ∧ (8 ≤ s.line.notices.length →
        (queueNotice f s).line = s.line ∧ (queueNotice f s).supervision.flags.queueDrop = true
          ∧ (queueNotice f s).counter .droppedNotices
            = if s.start.node = .fault then s.counter .droppedNotices
              else nextCount (s.counter .droppedNotices))

/-- The arbiter (R122, R123): it changes what the transmitter holds, the idle count, the offer's stage and
the STATUS's due state alone; an IDLE transmitter is handed the head answer before all else, otherwise
the first of offer, notices and STATUS that has a frame, from the one whose turn it is; an answer takes
the place of another frame that waits for its gap and has not collided, which returns to its source. A
frame handed over on a line that has been idle for its gap is sent at once, and any other waits for its
gap (R115); the idle count changes with the start of a frame alone, to 0. -/
def Obligations.ArbiterServesInTurn : Prop :=
  ∀ s : State,
    ArbiterOnly s (arbitrate s)
      ∧ ((arbitrate s).line.idleCount = s.line.idleCount
        ∨ (arbitrate s).line.idleCount = 0 ∧ ∃ h, (arbitrate s).line.transmitter = .sending h)
      ∧ (s.line.receiver ≠ .off → s.line.transmitter = .idle →
          (∀ f rest, s.line.answers = f :: rest →
            GapEntered ⟨.answer, f, 0⟩ s.line.idleCount (arbitrate s).line
              ∧ (arbitrate s).handoff = s.handoff ∧ (arbitrate s).supervision = s.supervision)
          ∧ (s.line.answers = [] → ∀ f rest, s.line.notices = f :: rest →
              s.line.turn = .notices ∨ (s.line.turn = .offer ∧ offerFrame s = none)
                ∨ (s.line.turn = .status ∧ s.supervision.statusDue ≠ .due ∧ offerFrame s = none) →
              GapEntered ⟨.notices, f, 0⟩ s.line.idleCount (arbitrate s).line)
          ∧ (s.line.answers = [] → s.supervision.statusDue = .due →
              s.line.turn = .status ∨ (s.line.turn = .notices ∧ s.line.notices = [])
                ∨ (s.line.turn = .offer ∧ offerFrame s = none ∧ s.line.notices = []) →
              GapEntered ⟨.status, ⟨31, .status, statusPayload s⟩, 0⟩ s.line.idleCount (arbitrate s).line
                ∧ (arbitrate s).supervision.statusDue = .held)
          ∧ (s.line.answers = [] → ∀ f, offerFrame s = some f →
              s.line.turn = .offer ∨ (s.line.turn = .status ∧ s.supervision.statusDue ≠ .due)
                ∨ (s.line.turn = .notices ∧ s.line.notices = [] ∧ s.supervision.statusDue ≠ .due) →
              GapEntered ⟨.offer, f, 0⟩ s.line.idleCount (arbitrate s).line
                ∧ offerStage (arbitrate s) = some .onLine))
      ∧ (∀ h f rest, s.line.receiver ≠ .off → s.line.transmitter = .waitGap h → h.source ≠ .answer →
          h.collisions = 0 → s.line.answers = f :: rest →
          GapEntered ⟨.answer, f, 0⟩ s.line.idleCount (arbitrate s).line
            ∧ (h.source = .status → (arbitrate s).supervision.statusDue = .due)
            ∧ (h.source = .offer → offerStage (arbitrate s) = (offerStage s).map fun _ => .due))

/-! ## Frames -/

/-- A frame of this node (R106, R108): its first character alone has the mark set, and every character
passes the receiver's checks of parity and stop bit. A frame that a VC-412 sends is a good frame to the
receiver that collects it (R108, R111): the head and the body it sends give back destination, source,
kind and payload. -/
def Obligations.FramesGoOutSoundAndGood : Prop :=
  (∀ (source : Nat) (f : OutFrame),
    (frameChars source f).length = f.payload.length + 5
      ∧ (∀ c ∈ frameChars source f, charSound c = true)
      ∧ ((frameChars source f).map (·.mark)) = true :: List.replicate (f.payload.length + 4) false
      ∧ (frameChars source f).map (·.data) = frameBytes source f)
    ∧ (∀ (source : Nat) (f : OutFrame) (head : Byte) (body : List Byte),
    validStation source = true → f.dest ≤ 31 → f.payload.length ∈ kindLengths f.kind →
    frameBytes source f = head :: body →
      bodyEnds body = true
        ∧ testFrame head body
          = some { dest := f.dest, source := source, kind := f.kind, payload := f.payload })

/-- The eighteen bytes of an OFFER hold a record's carried fields at the places of section 7.2 (R136), and
the next node reads from them what was put there (R137, R139): every carried field of the record comes
back. -/
def Obligations.OfferCarriesTheRecord : Prop :=
  ∀ r : Record, Carryable r →
    OfferPayloadOf r (offerPayload r) ∧ decodeOffer (offerPayload r) = some (carried r)

/-! ## Reset, START, RUN and FAULT -/

/-- Power-up reset (R175, R2, R15, R36, R62, R89, R125, R148, R163, R174): what every block holds after it,
whatever the node was doing; no dwell or home timer runs and the receive buffer is empty. The commands
waiting stay (the model's queue, log entry 3). The release of reset (R175, R177, R6, R85): the first
speed window begins, the straps are read, and the input levels, segment clear among them, are those of
the operand. Straps of 1 to 30 leave the node in START; 0 and 31 bring FAULT with reason STRAP and a
node that takes no part in the line (R182). Its status timer starts all the same, with a period of
1,000 ms, and a STATUS falls due, which it keeps (R164, R174): so the model reads the rules for a silent
node (log entry 10, DEDUCED). -/
def Obligations.ResetAndItsRelease : Prop :=
  (∀ s : State, ∃ t, exec .powerUpReset s = .next t ∧ t.pending = s.pending
    ∧ t.start.resetHeld = true ∧ t.start.node = .start ∧ t.start.faultReason = .none
    ∧ t.position.counter = 0 ∧ t.position.windowCount = 0 ∧ t.position.ring = ⟨0, 0, 0, 0⟩
    ∧ t.position.speed = 0 ∧ t.position.band = .slow ∧ t.position.stopped = true
    ∧ t.track.table = [] ∧ t.track.bagSeq = 0 ∧ t.track.openEntry = none ∧ t.track.openMerge = none
    ∧ t.track.readerBytes = []
    ∧ t.resolution.exceptions = [] ∧ t.resolution.requests = [] ∧ t.resolution.service = none
    ∧ (∀ k, (t.outlets.get k).fill = 0 ∧ (t.outlets.get k).faulted = false
        ∧ (t.outlets.get k).lineHold = false ∧ pusherOutput t k = false
        ∧ (t.outlets.get k).dwellTimer = none ∧ (t.outlets.get k).homeTimer = none)
    ∧ t.line.receiver = .off ∧ t.line.buffer = [] ∧ t.line.transmitter = .idle ∧ t.line.answers = []
    ∧ t.line.notices = [] ∧ t.line.turn = .offer ∧ lineOutput t = []
    ∧ t.handoff.outbound = none ∧ t.handoff.pendingOffers = [] ∧ t.handoff.expected = []
    ∧ t.induction.codes = [] ∧ t.induction.permit = false
    ∧ (∀ c, t.counter c = 0) ∧ flagsByte t = 0 ∧ t.supervision.statusTimer = none
    ∧ t.supervision.statusDue = .notDue ∧ t.supervision.crowded = false)
    ∧ (∀ (straps : BitVec 5) (pins : PinLevels) (s : State), s.start.resetHeld = true →
    ∃ t, exec (.resetRelease straps pins) s = .next t
      ∧ t.start.resetHeld = false ∧ t.start.station = straps.toNat ∧ t.start.clearHeld = pins.clear
      ∧ t.position = { s.position with windowTimer := some 0 }
      ∧ (∀ k, t.outlets.get k = { s.outlets.get k with
            cartPresent := pins.carts.get k, holdSwitch := pins.holds.get k,
            homeSensor := pins.homes.get k })
      ∧ (1 ≤ straps.toNat ∧ straps.toNat ≤ 30 →
          t.start.node = s.start.node ∧ t.start.faultReason = s.start.faultReason
            ∧ t.supervision = s.supervision)
      ∧ (straps.toNat = 0 ∨ straps.toNat = 31 →
          t.start.node = .fault ∧ t.start.faultReason = .strap
            ∧ t.supervision = { s.supervision with
                statusTimer := some 0, statusPeriod := 1000, statusDue := .due })
      ∧ t.line = s.line ∧ t.track = s.track
      ∧ t.resolution = s.resolution ∧ t.handoff = s.handoff ∧ t.induction = s.induction)

/-- An image that passes every check fits its node (R178 to R180, R149): 256 bytes that sum to 0, the format
byte, ranges, and the distances of a segment; so the merge zone never reaches back to the entry eye
(section 8.2), and no arming position lies before the record's trailing edge of a fitting bag. The
checks of the image in their order (R176, R178 to R180, R41): what stops answering, the sum, the format
byte, the ranges of section 10.3, the distances of a segment, and last the windows against the outlets;
the first that fails gives the reason. Where the image holds each value (section 10.3). -/
def Obligations.ImageChecksDecideInOrder : Prop :=
  (∀ img : List Byte, imageFault img = .none → ∀ c, c = imageValues img →
    256 ≤ img.length ∧ byteSum (img.take 256) = 0 ∧ img.getD 0 0 = 0xC4
      ∧ (∀ n ∈ [c.manifest, c.coding, c.supervisory, c.downstream], 1 ≤ n ∧ n ≤ 30)
      ∧ 1 ≤ c.lapLimit ∧ c.lapLimit ≤ 7 ∧ c.tolerance ≤ 50
      ∧ 1 ≤ c.up01 ∧ c.up01 < c.up12 ∧ c.up12 ≤ 16380
      ∧ 1 ≤ c.stopThreshold ∧ c.stopThreshold ≤ 255
      ∧ 1 ≤ c.attemptLimit ∧ c.attemptLimit ≤ 15
      ∧ 100 ≤ c.statusPeriod ∧ c.statusPeriod ≤ 2000
      ∧ c.lowWater < c.highWater ∧ c.highWater ≤ 48
      ∧ c.offerDistance ≤ c.segmentLength
      ∧ (∀ k, (c.outlets.get k).role ≠ .unused →
          c.armDistance + (c.outlets.get k).maxLength ≤ (c.outlets.get k).distance
            ∧ (c.outlets.get k).distance + (c.outlets.get k).maxLength < c.offerDistance
            ∧ 1 ≤ (c.outlets.get k).capacity ∧ (c.outlets.get k).capacity ≤ 250)
      ∧ (c.induction = true → ∀ b, minGap c b + c.mergeWindow < c.mergeDistance)
      ∧ (c.induction = true → c.readerFitted = true → c.mergeDistance < c.readerDistance)
      ∧ c.windows.length = 8
      ∧ (∀ w ∈ c.windows.drop 4, w.carve = none)
      ∧ (∀ w ∈ c.windows, w.base ≤ w.limit → (c.outlets.get w.outlet).role ≠ .unused))
    ∧ (∀ (img : List Byte) (b w : Nat → Nat), (∀ i, b i = (img.getD i 0).toNat) →
    (∀ i, w i = b i * 256 + b (i + 1)) →
    (img.length < 256 ↔ imageFault img = .noImage)
      ∧ (256 ≤ img.length → (byteSum (img.take 256) ≠ 0 ↔ imageFault img = .checksum))
      ∧ (256 ≤ img.length → byteSum (img.take 256) = 0 →
          (img.getD 0 0 ≠ 0xC4 ↔ imageFault img = .format))
      ∧ (256 ≤ img.length → byteSum (img.take 256) = 0 → img.getD 0 0 = 0xC4 →
          (¬ImageRanges b w ↔ imageFault img = .range)
          ∧ (ImageRanges b w → (¬ImageGeometry (imageValues img) ↔ imageFault img = .geometry)
            ∧ (ImageGeometry (imageValues img) →
              (¬ImageWindows (imageValues img) ↔ imageFault img = .window)
              ∧ (ImageWindows (imageValues img) → imageFault img = .none))))
      ∧ imageFault img ≠ .strap
      ∧ ImagePlaces b w (imageValues img))

/-- The end of START with a good image (R181, R76, R125, R160, R164, R151), segment clear not held: the node
is in RUN with the image's values, its pushers HOME or RETRACTING, its receiver in HUNT, its status
timer running with a STATUS due or taken by the transmitter, and its merge permit decided. The end of
START with an image that fails a check (R176, R182): FAULT with the check's reason. With the image's
bytes read and a line rate to use, the node joins the line; without, it stays silent. Its status timer
starts with a period of 1,000 ms and a STATUS falls due (R164, R174), which a silent node keeps; that its
timer starts too is the model's reading (log entry 10, DEDUCED). The encoder and the belt's state go on as they were.
The end of START with a good image and segment clear held (R181, R184): the node is in RUN and reports
CLEARING, holds no record and no offer, makes no notice and has its permit withdrawn. Whole machine
(R182): a node in FAULT stays there with its reason at every step but a power-up reset. -/
def Obligations.StartEndsInRunOrFault : Prop :=
  (∀ (img : List Byte) (s : State), s.start.resetHeld = false → s.start.node = .start →
    s.start.clearHeld = false → imageFault img = .none →
    ∃ t, exec (.startSequenceEnd img) s = .next t
      ∧ t.start = { s.start with node := .run, faultReason := .none, image := imageValues img }
      ∧ (∀ k, (t.outlets.get k) =
          if ((imageValues img).outlets.get k).role = .unused ∨ (s.outlets.get k).homeSensor = true
          then { s.outlets.get k with pusher := .home, homeTimer := none }
          else { s.outlets.get k with pusher := .retracting, homeTimer := some 0 })
      ∧ t.line.receiver = .hunt ∧ t.line.buffer = [] ∧ t.line.idleCount = 0
      ∧ t.line.rate = (imageValues img).rate
      ∧ t.supervision.statusTimer = some 0
      ∧ t.supervision.statusPeriod = (imageValues img).statusPeriod
      ∧ t.supervision.statusDue ≠ .notDue ∧ t.supervision.counters = s.supervision.counters
      ∧ t.induction.codes = s.induction.codes
      ∧ (∀ e ∈ t.induction.crowdView, (imageValues img).watchSet.getLsbD e.station = true
          ∧ e.crowded = false ∧ e.silent = false ∧ e.age = 0)
      ∧ ((imageValues img).induction = true → ∀ n < 32, (imageValues img).watchSet.getLsbD n = true →
          ∃ e ∈ t.induction.crowdView, e.station = n)
      ∧ t.induction.permit = permitConditions t
      ∧ t.position = s.position ∧ t.track = s.track ∧ t.resolution = s.resolution)
    ∧ (∀ (img : List Byte) (s : State), s.start.resetHeld = false → s.start.node = .start →
    imageFault img ≠ .none →
    ∃ t, exec (.startSequenceEnd img) s = .next t
      ∧ t.start = { s.start with node := .fault, faultReason := imageFault img }
      ∧ (∀ r, 256 ≤ img.length → rateOfDivide (imageByte img 1) = some r →
          t.line.receiver = .hunt ∧ t.line.idleCount = 0 ∧ t.line.rate = r)
      ∧ (img.length < 256 ∨ rateOfDivide (imageByte img 1) = none →
          t.line = s.line ∧ t.supervision.statusDue = .due)
      ∧ t.supervision = { s.supervision with
          statusTimer := some 0, statusPeriod := 1000, statusDue := t.supervision.statusDue }
      ∧ t.supervision.statusDue ≠ .notDue
      ∧ t.position = s.position ∧ t.outlets = s.outlets ∧ t.track = s.track
      ∧ t.resolution = s.resolution ∧ t.induction = s.induction)
    ∧ (∀ (img : List Byte) (s : State), s.start.resetHeld = false → s.start.node = .start →
    s.start.clearHeld = true → imageFault img = .none → heldRecords s = [] →
    s.handoff.outbound = none → s.supervision.crowded = false →
    ∃ t, exec (.startSequenceEnd img) s = .next t
      ∧ t.start = { s.start with node := .run, faultReason := .none, image := imageValues img }
      ∧ (statusPayload t).getD 0 0 % 4 = 2 ∧ t.induction.permit = false
      ∧ heldRecords t = [] ∧ t.handoff.outbound = none ∧ t.resolution.requests = []
      ∧ t.line.notices = s.line.notices ∧ t.line.answers = s.line.answers
      ∧ t.line.receiver = .hunt ∧ t.line.idleCount = 0 ∧ t.line.rate = (imageValues img).rate
      ∧ t.supervision.statusTimer = some 0
      ∧ t.supervision.statusPeriod = (imageValues img).statusPeriod
      ∧ t.supervision.statusDue ≠ .notDue ∧ t.supervision.counters = s.supervision.counters
      ∧ (∀ k, (t.outlets.get k).pusher =
          if ((imageValues img).outlets.get k).role = .unused ∨ (s.outlets.get k).homeSensor = true
          then .home else .retracting)
      ∧ (∀ e ∈ t.induction.crowdView, e.crowded = false ∧ e.silent = false ∧ e.age = 0)
      ∧ t.induction.codes = s.induction.codes ∧ t.position = s.position
      ∧ t.resolution.exceptions = s.resolution.exceptions)
    ∧ (∀ s t : State, s.start.node = .fault → s.pending.head? ≠ some .powerUpReset →
    step s = .next t →
    t.start.node = .fault
      ∧ (s.start.resetHeld = false → t.start.faultReason = s.start.faultReason))

/-! ## The belt -/

/-- An encoder pulse (R1, R7), in every node state: the position counter advances by one and wraps, the
window count rises and stops at 4,095, the rise to 4,095 sets OVERSPEED, and the merge permit is decided
afresh (R151). Nothing else changes: the waits that the pulse brings to their positions are commands of
their own (the model's reading, log entry 7, DEDUCED). Whole machine (R2): at every step but a pulse and
a power-up reset the position counter stays. -/
def Obligations.PulseAdvancesTheBelt : Prop :=
  (∀ s : State, s.start.resetHeld = false →
    ∃ t, exec .encoderPulse s = .next t
      ∧ t.position.counter.toNat = (s.position.counter.toNat + 1) % 16777216
      ∧ (s.position.windowCount ≤ 4095 →
          t.position.windowCount =
            if s.position.windowCount = 4095 then 4095 else s.position.windowCount + 1)
      ∧ t = { s with
          position := { s.position with
            counter := t.position.counter, windowCount := t.position.windowCount }
          supervision := { s.supervision with
            flags := { s.supervision.flags with overspeed := t.supervision.flags.overspeed } }
          induction := { s.induction with permit := permitConditions t } }
      ∧ (t.supervision.flags.overspeed = true ↔
          s.supervision.flags.overspeed = true ∨ s.position.windowCount = 4094))
    ∧ (∀ s t : State, s.pending.head? ≠ some .encoderPulse → s.pending.head? ≠ some .powerUpReset →
    step s = .next t → t.position.counter = s.position.counter)

/-- The end of a speed window (R8, R10, R11, R12): the ring takes the window's count, the speed is the sum
of the last four, a new window begins; in RUN the band moves by at most one step and STOPPED is decided,
and outside RUN both stay. Nothing else changes but the merge permit. -/
def Obligations.WindowEndMeasuresSpeed : Prop :=
  ∀ s : State, s.start.resetHeld = false →
    ∃ t, exec .speedWindowEnd s = .next t
      ∧ t.position.ring = ⟨s.position.ring.q1, s.position.ring.q2, s.position.ring.q3,
          s.position.windowCount⟩
      ∧ t.position.speed = s.position.ring.q1 + s.position.ring.q2 + s.position.ring.q3
          + s.position.windowCount
      ∧ t.position.windowCount = 0 ∧ t.position.windowTimer = some 0
      ∧ t.position.counter = s.position.counter
      ∧ (s.start.node ≠ .run → t.position.band = s.position.band
          ∧ t.position.stopped = s.position.stopped)
      ∧ (s.start.node = .run →
          (t.position.stopped = true ↔ t.position.speed < s.start.image.stopThreshold)
          ∧ (s.position.band = .slow →
              t.position.band = if s.start.image.up01 ≤ t.position.speed then .normal else .slow)
          ∧ (s.position.band = .normal →
              t.position.band =
                if s.start.image.up12 ≤ t.position.speed then .fast
                else if t.position.speed + s.start.image.hysteresis < s.start.image.up01 then .slow
                else .normal)
          ∧ (s.position.band = .fast →
              t.position.band =
                if t.position.speed + s.start.image.hysteresis < s.start.image.up12 then .normal
                else .fast))
      ∧ t = { s with
          position := t.position
          induction := { s.induction with permit := permitConditions t } }

/-! ## Arrivals and trailing edges -/

/-- An arrival with no record to be found (R24, R25, R29): an ANON record with a bag ref of this station
that is not held, its sequence the first free one from the bag sequence, at the tail of the track table,
its lead position the current position; it is the open record, its resolution is asked for, behind one
in service (R58), and the anonymous counter rises. At the high-water mark a node not yet crowded becomes
crowded and queues CROWD on with the occupancy (R158, R159); no other notice is queued. -/
def Obligations.AnonymousArrivalMakesRecord : Prop :=
  ∀ s : State, BagsKept s → s.start.node = .run → s.start.clearHeld = false →
    s.handoff.expected = [] → s.handoff.pendingOffers = [] → s.track.table.length < 48 →
    1 ≤ s.start.image.offerDistance → s.start.image.offerDistance ≤ 65535 →
    ∃ r t, exec .entryEyeArrival s = .next t
      ∧ r.ref.station = s.start.station ∧ heldRecord s r.ref = none ∧ FirstFree s r.ref.seq
      ∧ t.track.table = s.track.table ++ [r] ∧ t.track.openEntry = some r.ref
      ∧ t.track.bagSeq = (r.ref.seq + 1) % 2048 ∧ t.track.openMerge = s.track.openMerge
      ∧ r.tag = none ∧ r.stray = some .anon ∧ r.length = none ∧ r.laps = 0 ∧ r.refusals = []
      ∧ r.lengthDoubt = false ∧ r.relabelled = false ∧ r.lead = some s.position.counter
      ∧ r.trail = none ∧ r.verdict = .unresolved ∧ r.window = .notOpen ∧ r.state = .onBelt
      ∧ t.counter .anonymous = nextCount (s.counter .anonymous)
      ∧ Requested s t r.ref
      ∧ (t.supervision.crowded = true ↔
          s.supervision.crowded = true ∨ s.start.image.highWater ≤ s.track.table.length + 1)
      ∧ (s.line.notices.length < 8 →
          t.line.notices = s.line.notices
            ++ if s.supervision.crowded = false ∧ s.start.image.highWater ≤ s.track.table.length + 1
              then [⟨31, .crowd, [1, byteOf (s.track.table.length + 1)]⟩] else [])
      ∧ t.induction.permit = permitConditions t ∧ t.induction.codes = s.induction.codes
      ∧ t.position = s.position ∧ t.outlets = s.outlets ∧ t.start = s.start
      ∧ t.handoff.expected = [] ∧ t.handoff.pendingOffers = []
      ∧ t.resolution.exceptions = s.resolution.exceptions

/-- An arrival for which a record is held (R24, R96, R98, R34): the head of the expected list, else the
oldest pending offer, joins the track table at the tail with what it carried, its verdict kept, its lead
position the current position; the loop head raises its laps and marks it LAPS at the limit where it
bore no mark. A record from the pending-offer queue whose tag another record of the table carries is
marked DUPLICATE where it bears no mark, and so is each such other record; the duplicates counter rises
once. Its request waits behind a resolution in service (R58). Where the outlet of its verdict lies no
farther than the arming distance, its arming position is reached already and it is armed at once (R68):
its trailing edge has not passed, so it is refused OVERSIZE, ON-BELT with verdict PASS and fixed, and
marked so where it bears no mark (R69). That this arming comes after the lap check and the duplicate
check, so that their marks stand before OVERSIZE, is read by inference (log entry 12, DEDUCED). -/
def Obligations.ArrivalPromotesHeldRecord : Prop :=
  ∀ (s : State) (r : Record) (duplicate armed : Bool), BagsKept s → s.start.node = .run →
    s.start.clearHeld = false →
    s.track.table.length < 48 →
    (s.handoff.expected.head? = some r
      ∨ (s.handoff.expected = [] ∧ s.handoff.pendingOffers.head? = some r)) →
    duplicate = (decide (s.handoff.expected = []) && s.track.table.any (twin r.tag)) →
    1 ≤ s.start.image.offerDistance → s.start.image.offerDistance ≤ 65535 →
    s.start.image.armDistance ≤ 65535 → (∀ k, (s.start.image.outlets.get k).distance ≤ 65535) →
    s.track.openMerge ≠ some r.ref →
    armed = (verdictOutlet r.verdict).any (fun k =>
      decide ((s.start.image.outlets.get k).distance ≤ s.start.image.armDistance)) →
    ∃ r' t, exec .entryEyeArrival s = .next t
      ∧ t.track.table.map (·.ref) = s.track.table.map (·.ref) ++ [r.ref]
      ∧ inTable t r.ref = some r' ∧ t.track.openEntry = some r.ref
      ∧ inExpected t r.ref = none ∧ inPendingOffers t r.ref = none
      ∧ r'.tag = r.tag ∧ r'.length = r.length ∧ r'.lengthDoubt = r.lengthDoubt
      ∧ r'.relabelled = r.relabelled ∧ r'.verdictFixed = armed
      ∧ r'.refusals = (if armed then (refusedAs s.start.station .oversize r).refusals else r.refusals)
      ∧ r'.verdict = (if armed then .pass else r.verdict)
      ∧ t.counter .refusals
        = (if armed then nextCount (s.counter .refusals) else s.counter .refusals)
      ∧ r'.laps = (if s.start.image.loopHead then min 7 (r.laps + 1) else r.laps)
      ∧ r'.lead = some s.position.counter ∧ r'.trail = none ∧ r'.measuredHere = false
      ∧ r'.window = .notOpen ∧ r'.state = .onBelt ∧ r'.deadline = none ∧ r'.discardTimer = none
      ∧ r'.stray = (if r.stray ≠ none then r.stray
          else if s.start.image.loopHead = true ∧ s.start.image.lapLimit ≤ r'.laps then some .laps
          else if duplicate then some .duplicate
          else if armed then some .oversize else none)
      ∧ (∀ x ∈ s.track.table, inTable t x.ref
          = some (if duplicate && twin r.tag x then asDuplicate x else x))
      ∧ t.counter .duplicates
        = (if duplicate then nextCount (s.counter .duplicates) else s.counter .duplicates)
      ∧ Requested s t r.ref
      ∧ t.counter .anonymous = s.counter .anonymous ∧ t.track.bagSeq = s.track.bagSeq
      ∧ t.induction.permit = permitConditions t ∧ t.induction.codes = s.induction.codes
      ∧ t.position = s.position ∧ t.start = s.start
      ∧ (∀ k, { t.outlets.get k with diverting := [] } = { s.outlets.get k with diverting := [] })
      ∧ t.resolution.exceptions = s.resolution.exceptions

/-- An arrival into a full track table (R26): no record is placed and no bag ref drawn; a record found is
held no longer; the untracked counter rises and there is no open record. A merge arrival into a full
track table (R154): no record, no bag ref, the untracked counter rises, FORCED MERGE is set, no open
record, and a coded bag's code is thrown away. -/
def Obligations.FullTableLeavesBagsUntracked : Prop :=
  (∀ s : State, BagsKept s → s.start.node = .run → s.start.clearHeld = false →
    48 ≤ s.track.table.length →
    ∃ t, exec .entryEyeArrival s = .next t
      ∧ t.track.table = s.track.table ∧ t.track.openEntry = none ∧ t.track.bagSeq = s.track.bagSeq
      ∧ t.counter .untracked = nextCount (s.counter .untracked)
      ∧ t.counter .anonymous = s.counter .anonymous
      ∧ (∀ r, s.handoff.expected.head? = some r → heldRecord t r.ref = none)
      ∧ (∀ r, s.handoff.expected = [] → s.handoff.pendingOffers.head? = some r →
          heldRecord t r.ref = none)
      ∧ t.position = s.position ∧ t.start = s.start ∧ t.induction.codes = s.induction.codes
      ∧ t.resolution.exceptions = s.resolution.exceptions)
    ∧ (∀ (s : State) (coded : Bool), s.start.node = .run → s.start.clearHeld = false →
    s.start.image.induction = true → 48 ≤ s.track.table.length →
    ∃ t, exec (.mergeArrival coded) s = .next t
      ∧ t.track = { s.track with openMerge := none }
      ∧ t.counter .untracked = nextCount (s.counter .untracked)
      ∧ t.supervision.flags.forcedMerge = true
      ∧ t.induction.codes = (if coded then s.induction.codes.tail else s.induction.codes)
      ∧ t.resolution = s.resolution ∧ t.position = s.position ∧ t.outlets = s.outlets
      ∧ t.start = s.start ∧ t.handoff.expected = s.handoff.expected)

/-- The entry eye's trailing edge (R27, R28): the open record gets its trail position and its length, at
most 65,535; a disagreement with a carried length sets length doubt, and a second one marks the record
DOUBT. Every other record stays, and the eye has no open record. The merge eye's trailing edge on an
induction node (R27): the same, with the trail position the current position less the merge distance. A
deferred arming may follow at once (R68). An EXITING record whose exit is then reached, the merge
distance being at or beyond the segment length, leaves as ABANDONED at once (R127). -/
def Obligations.TrailingEdgesMeasure : Prop :=
  (∀ (s : State) (ref : BagRef) (r : Record) (lead : Position) (n : Nat),
    BagsKept s → s.start.node = .run → s.start.clearHeld = false → s.track.openEntry = some ref →
    inTable s ref = some r → r.lead = some lead → 0 ≤ dist lead s.position.counter →
    n = min 65535 (dist lead s.position.counter).toNat →
    1 ≤ s.start.image.segmentLength → s.start.image.segmentLength ≤ 65535 →
    (s.start.image.readerFitted = true → 1 ≤ s.start.image.readerDistance
      ∧ s.start.image.readerDistance ≤ 65535 ∧ s.start.image.readerLatency ≤ 65535) →
    ∃ r' t, exec .entryEyeTrailingEdge s = .next t
      ∧ t.track.openEntry = none ∧ inTable t ref = some r'
      ∧ (∀ other, other ≠ ref → inTable t other = inTable s other)
      ∧ r' = { r with
          trail := some s.position.counter, length := some n, measuredHere := true,
          lengthDoubt := r'.lengthDoubt, stray := r'.stray }
      ∧ (∀ old, r.length = some old → r.measuredHere = false →
          s.start.image.tolerance * old < ((old : Int) - n).natAbs * 100 →
          r'.lengthDoubt = true
            ∧ r'.stray = if r.lengthDoubt = true ∧ r.stray = none then some .doubt else r.stray)
      ∧ ((r.length = none ∨ r.measuredHere = true ∨ ∃ old, r.length = some old
            ∧ ((old : Int) - n).natAbs * 100 ≤ s.start.image.tolerance * old) →
          r'.lengthDoubt = r.lengthDoubt ∧ r'.stray = r.stray)
      ∧ t.position = s.position ∧ t.outlets = s.outlets ∧ t.start = s.start
      ∧ t.handoff.expected.map (·.ref) = s.handoff.expected.map (·.ref)
      ∧ t.supervision.counters = s.supervision.counters)
    ∧ (∀ (s : State) (ref : BagRef) (r : Record) (lead trail : Position) (m : Nat),
    BagsKept s → s.start.node = .run → s.start.clearHeld = false → s.start.image.induction = true →
    s.track.openMerge = some ref → inTable s ref = some r → r.lead = some lead →
    m = s.start.image.mergeDistance → m ≤ 65535 → s.start.image.segmentLength ≤ 65535 →
    trail = s.position.counter - BitVec.ofNat 24 m →
    (r.state ≠ .exiting ∨ m < s.start.image.segmentLength → 0 ≤ dist lead trail →
      ∃ r' t, exec .mergeEyeTrailingEdge s = .next t
        ∧ t.track.openMerge = none ∧ inTable t ref = some r'
        ∧ r'.trail = some trail ∧ r'.length = some (min 65535 (dist lead trail).toNat)
        ∧ r'.measuredHere = true ∧ r'.lead = r.lead ∧ r'.tag = r.tag ∧ r'.laps = r.laps
        ∧ (r.state = .exiting → r'.state = .exiting)
        ∧ (∀ other, other ≠ ref → inTable t other = inTable s other)
        ∧ t.position = s.position ∧ t.start = s.start ∧ t.track.openEntry = s.track.openEntry
        ∧ t.induction.permit = permitConditions t ∧ t.induction.codes = s.induction.codes)
      ∧ (r.state = .exiting → s.start.image.segmentLength ≤ m →
        ∃ t, exec .mergeEyeTrailingEdge s = .next t
          ∧ LeavesAbandoned s t r ∧ t.track.openMerge = none))

/-- A merge arrival with room in the track table (R152, R153, R154, R23, R29): a new record with the first
free bag ref of this station, its travel the merge distance, behind every record that has travelled as
far and before the first that has not; from the coded feeder it takes the head code, or is NOREAD where
there is none. A code whose cabin and letter another record of the track table or the expected list
carries marks the new record and each such other DUPLICATE where it bears no mark, and the duplicates
counter rises once (R34); a newly marked record of the expected list is due with verdict UNRESOLVED
(R59). Its request waits behind a resolution in service (R58). FORCED MERGE is set where the permit was
withdrawn. With the merge distance at or beyond the offer distance its offer point is reached already
(R126): the record is EXITING at once, and where no record holds the outbound offer, the front-most
EXITING record that has not held it takes it, with no attempt made (R128). -/
def Obligations.MergePlacesByTravel : Prop :=
  ∀ (s : State) (coded past : Bool) (m : Nat) (same : Record → Record), BagsKept s →
    StatesAgree s → s.start.node = .run →
    s.start.clearHeld = false → s.start.image.induction = true → s.track.table.length < 48 →
    m = s.start.image.mergeDistance → m ≤ 65535 → s.start.image.offerDistance ≤ 65535 →
    past = decide (s.start.image.offerDistance ≤ m) → same = (if past then apartFromOffer else id) →
    ∃ ref r' l₁ l₂ t, exec (.mergeArrival coded) s = .next t
      ∧ ref.station = s.start.station ∧ heldRecord s ref = none ∧ FirstFree s ref.seq
      ∧ s.track.table = l₁ ++ l₂
      ∧ t.track.table.map (·.ref) = l₁.map (·.ref) ++ [ref] ++ l₂.map (·.ref)
      ∧ (∀ x ∈ l₁, (m : Int) ≤ leadTravel s x) ∧ (∀ x, l₂.head? = some x → leadTravel s x < m)
      ∧ inTable t ref = some r' ∧ t.track.openMerge = some ref
      ∧ r'.lead = some (s.position.counter - BitVec.ofNat 24 m) ∧ r'.trail = none ∧ r'.laps = 0
      ∧ r'.refusals = [] ∧ r'.length = none ∧ r'.verdict = .unresolved
      ∧ r'.pastOfferPoint = past ∧ r'.state = (if past then .exiting else .onBelt)
      ∧ (past = false ∨ s.handoff.outbound ≠ none →
          t.handoff.outbound.map (fun o => (o.ref, o.attempts))
            = s.handoff.outbound.map fun o => (o.ref, o.attempts))
      ∧ (past = true → s.handoff.outbound = none →
          t.handoff.outbound.map (fun o => (o.ref, o.attempts))
            = some (((l₁.find? fun x => decide (x.state = .exiting) && !x.heldOffer).elim ref (·.ref)), 0))
      ∧ (coded = false → r'.tag = none ∧ r'.stray = none ∧ t.induction.codes = s.induction.codes)
      ∧ (coded = true → s.induction.codes = [] →
          r'.tag = none ∧ r'.stray = some .noread ∧ t.induction.codes = [])
      ∧ (coded = false ∨ s.induction.codes = [] →
          (∀ x ∈ s.track.table, (inTable t x.ref).map same = some (same x))
            ∧ t.handoff.expected = s.handoff.expected
            ∧ t.counter .duplicates = s.counter .duplicates)
      ∧ (∀ c rest tag duplicate, coded = true → s.induction.codes = c :: rest →
          tag = some ⟨c.cabin, c.letter, .coded⟩ →
          duplicate = (s.track.table ++ s.handoff.expected).any (twin tag) →
          r'.tag = tag ∧ t.induction.codes = rest
            ∧ r'.stray = (if duplicate then some .duplicate else none)
            ∧ (∀ x ∈ s.track.table,
                (inTable t x.ref).map same = some (same (if twin tag x then asDuplicate x else x)))
            ∧ t.handoff.expected
              = s.handoff.expected.map (fun x => if twin tag x then asDuplicateExpected x else x)
            ∧ t.counter .duplicates
              = (if duplicate then nextCount (s.counter .duplicates) else s.counter .duplicates))
      ∧ (t.supervision.flags.forcedMerge = true ↔
          s.supervision.flags.forcedMerge = true ∨ s.induction.permit = false)
      ∧ Requested s t ref
      ∧ t.track.bagSeq = (ref.seq + 1) % 2048 ∧ t.track.openEntry = s.track.openEntry
      ∧ t.position = s.position ∧ t.outlets = s.outlets ∧ t.start = s.start
      ∧ t.resolution.exceptions = s.resolution.exceptions

/-! ## The tag reader -/

/-- A READ result (R31, R33, R34, R99) is bound to the front-most record whose window is OPEN: the
record takes the tag, keeps `relabelled` or sets it where a different tag stood, loses a mark of NOREAD,
ANON or DOUBT with its length doubt, is then marked LAPS or DUPLICATE where that applies, and its
resolution is asked for, behind one in service (R58). Each other record of the track table and the
expected list with the same cabin and letter is marked DUPLICATE where it bore no mark, one of the
expected list being then due with verdict UNRESOLVED. -/
def Obligations.ReadResultBindsTag : Prop :=
  ∀ (s : State) (r : Record) (c1 c0 letter check : Byte) (cabin : Nat) (clears duplicate : Bool),
    BagsKept s → StatesAgree s → s.start.node = .run → s.start.image.readerFitted = true →
    s.track.readerBytes = [] → cabin = c1.toNat * 256 + c0.toNat → 1000 ≤ cabin → cabin ≤ 19999 →
    letter.toNat ≤ 7 → 0xA5 + 1 + c1 + c0 + letter + check = (0 : Byte) →
    s.track.table.find? (fun x => decide (x.window = .open)) = some r →
    clears = decide (r.stray = none ∨ r.stray = some .noread ∨ r.stray = some .anon
      ∨ r.stray = some .doubt) →
    duplicate = (s.track.table ++ s.handoff.expected).any (fun x =>
      decide (x.ref ≠ r.ref ∧ x.tag.map (fun t => (t.cabin, t.letter)) = some (cabin, letter.toNat))) →
    ∃ r' t, exec (.readerMessage [0xA5, 1, c1, c0, letter, check]) s = .next t
      ∧ inTable t r.ref = some r' ∧ r'.tag = some ⟨cabin, letter.toNat, .read⟩
      ∧ (r'.relabelled = true ↔ r.relabelled = true
          ∨ ∃ g, r.tag = some g ∧ (g.cabin ≠ cabin ∨ g.letter ≠ letter.toNat))
      ∧ r'.window = .closed ∧ r'.state = r.state ∧ r'.verdict = r.verdict
      ∧ r'.lengthDoubt = (r.lengthDoubt && !clears)
      ∧ r'.stray = (if clears then
          (if s.start.image.lapLimit ≤ r.laps then some .laps
           else if duplicate then some .duplicate else none)
        else r.stray)
      ∧ (∀ x ∈ s.track.table, x.ref ≠ r.ref →
          inTable t x.ref = some (if twin r'.tag x then asDuplicate x else x))
      ∧ t.handoff.expected
        = s.handoff.expected.map (fun x => if twin r'.tag x then asDuplicateExpected x else x)
      ∧ t.handoff.pendingOffers = s.handoff.pendingOffers
      ∧ Requested s t r.ref
      ∧ t.counter .duplicates
        = (if duplicate then nextCount (s.counter .duplicates) else s.counter .duplicates)
      ∧ t.counter .unboundReads = s.counter .unboundReads ∧ t.track.readerBytes = []
      ∧ t.track.table.map (·.ref) = s.track.table.map (·.ref)
      ∧ t.position = s.position ∧ t.outlets = s.outlets ∧ t.start = s.start ∧ t.line = s.line
      ∧ t.resolution.exceptions = s.resolution.exceptions ∧ t.induction = s.induction

/-- A NOREAD result bound to the front-most open window, and a window that closes without result (R32, R35):
the window is CLOSED, the tag stays, and a record with neither tag nor mark is marked NOREAD. No counter
rises. A record's read window opens when its leading edge has reached the reader (R32), once; nothing
else changes. -/
def Obligations.ReadWindowsOpenAndClose : Prop :=
  (∀ (s : State) (r : Record) (c : Instr), BagsKept s → s.start.node = .run →
    s.start.image.readerFitted = true → r.window = .open →
    (c = .readerMessage [0xA5, 2, 0, 0, 0, 0x59] ∧ s.track.readerBytes = []
        ∧ s.track.table.find? (fun x => decide (x.window = .open)) = some r
      ∨ c = .readWindowClose r.ref ∧ inTable s r.ref = some r
        ∧ ∃ p, r.trail = some p
          ∧ reached s (ahead p (s.start.image.readerDistance + s.start.image.readerLatency)) = true) →
    ∃ r' t, exec c s = .next t ∧ inTable t r.ref = some r'
      ∧ r' = { r with
          window := .closed
          stray := if r.tag = none ∧ r.stray = none then some .noread else r.stray }
      ∧ (∀ other, other ≠ r.ref → inTable t other = inTable s other)
      ∧ t.supervision = s.supervision ∧ t.track.bagSeq = s.track.bagSeq
      ∧ t.handoff = s.handoff ∧ t.position = s.position ∧ t.outlets = s.outlets
      ∧ t.start = s.start ∧ t.line = s.line ∧ t.induction = s.induction
      ∧ t.resolution.exceptions = s.resolution.exceptions)
    ∧ (∀ (s : State) (r : Record) (p : Position), BagsKept s → s.start.node = .run →
    inTable s r.ref = some r → r.window = .notOpen → r.lead = some p →
    s.start.image.readerFitted = true → reached s (ahead p s.start.image.readerDistance) = true →
    exec (.readWindowOpen r.ref) s = .next { s with
      track := { s.track with
        table := updateIn s.track.table r.ref fun x => { x with window := .open } } })

/-- What the reader's input cannot give to a record is counted once as an unbound read (R31, R33): a result
with no open window, a message that fails at its check byte, a gap in a message, a character without its
stop bit (where no message is in progress, an A5h too, this is the model's reading: log entry 15,
DEDUCED), and a byte other than the marker with no message in progress. Nothing else changes, but that
the message in progress ends. The marker and the bytes behind it, fewer than six, begin a message and
count nothing. What a reader message of six bytes gives (R31): READ and NOREAD, and
nothing where the marker, the sum, the result byte, or a READ's cabin or letter is not as it must be. -/
def Obligations.ReaderInputIsJudged : Prop :=
  (∀ (s ended : State), s.start.node = .run → s.start.image.readerFitted = true →
    ended = { s with
      track := { s.track with readerBytes := [], readerGap := none }
      supervision := raised .unboundReads s.supervision } →
    (∀ b0 b1 b2 b3 b4, s.track.readerBytes = [] →
        (readerResult [0xA5, b0, b1, b2, b3, b4] = none
          ∨ s.track.table.any (fun x => decide (x.window = .open)) = false) →
        exec (.readerMessage [0xA5, b0, b1, b2, b3, b4]) s = .next ended)
      ∧ (∀ l, s.track.readerBytes = [] → l.length < 5 →
        exec (.readerMessage (0xA5 :: l)) s = .next { s with
          track := { s.track with readerBytes := 0xA5 :: l, readerGap := some 0 } })
      ∧ (s.track.readerBytes ≠ [] → exec .readerGapTimeout s = .next ended)
      ∧ (∀ b, exec (.damagedReaderByte b false) s = .next ended)
      ∧ (∀ b, s.track.readerBytes = [] → b ≠ 0xA5 →
        exec (.damagedReaderByte b true) s
          = .next { s with supervision := raised .unboundReads s.supervision }))
    ∧ (∀ (m result c1 c0 letter check : Byte) (cabin l : Nat),
    (readerResult [m, result, c1, c0, letter, check] = some .noread ↔
        m = 0xA5 ∧ m + result + c1 + c0 + letter + check = 0 ∧ result = 2)
      ∧ (readerResult [m, result, c1, c0, letter, check] = some (.read cabin l) ↔
        m = 0xA5 ∧ m + result + c1 + c0 + letter + check = 0 ∧ result = 1
          ∧ cabin = c1.toNat * 256 + c0.toNat ∧ 1000 ≤ cabin ∧ cabin ≤ 19999
          ∧ l = letter.toNat ∧ l ≤ 7))

/-! ## Resolution and exceptions -/

/-- The window lookup and its verdict (R42, R43): the first window that is on and covers the cabin matches,
and its carve-out decides by the last two digits; where no window covers the cabin no outlet is found.
An outlet of role DECK gives DIVERT, any other and none give PASS. -/
def Obligations.WindowLookupGivesVerdict : Prop :=
  ∀ (s : State) (l₁ l₂ : List Window) (w : Window) (c : Nat) (found : OutletNo),
    (∀ x ∈ l₁, ¬(x.base ≤ c ∧ c ≤ x.limit)) →
    found = (match w.carve with
      | some v => if v.low ≤ c % 100 ∧ c % 100 ≤ v.high then v.outlet else w.outlet
      | none => w.outlet) →
    (s.start.image.windows = l₁ ++ w :: l₂ → w.base ≤ c → c ≤ w.limit →
        windowLookup s.start.image.windows c = some found
          ∧ lookupVerdict s c =
            if (s.start.image.outlets.get found).role = .deck then .divert found else .pass)
      ∧ (s.start.image.windows = l₁ →
        windowLookup s.start.image.windows c = none ∧ lookupVerdict s c = .pass)

/-- What a resolution of a record gives, and the mark it sets (R53, R54, R55): a stray-bound record, and one
without a tag (marked NOREAD), go to the lowest-numbered STRAY outlet or pass; an exception of kind
CANCELLED or HOLD marks the record so and sends it there too, a REDIRECT looks its target up; otherwise
the record's own cabin is looked up. -/
def Obligations.ResolutionGivesVerdict : Prop :=
  ∀ (s : State) (r : Record) (stray : Verdict),
    (∀ k, (s.start.image.outlets.get k).role = .stray →
      (∀ j < k, (s.start.image.outlets.get j).role ≠ .stray) → stray = .stray k) →
    ((∀ k, (s.start.image.outlets.get k).role ≠ .stray) → stray = .pass) →
    (r.stray ≠ none → resolve s r = (stray, none))
      ∧ (r.stray = none → r.tag = none → resolve s r = (stray, some .noread))
      ∧ (∀ t, r.stray = none → r.tag = some t →
        (∀ kind, exceptionFor s t.cabin = some ⟨t.cabin, kind⟩ →
          (kind = .cancelled → resolve s r = (stray, some .cancelled))
            ∧ (kind = .hold → resolve s r = (stray, some .hold))
            ∧ (∀ target, kind = .redirect target → resolve s r = (lookupVerdict s target, none)))
        ∧ (exceptionFor s t.cabin = none → resolve s r = (lookupVerdict s t.cabin, none)))

/-- A resolution completes for a record whose verdict may still be written (R56, R142): the verdict and a
mark not yet borne are written, a RESOLVING entry becomes READY with its discard timer started. (A mark
newly set on an EXPECTED record makes its resolution due, R17, R59.) A resolution completes for a record
that is armed, diverting, fixed, or due again in the expected list, or that has left (R56, R60): the
result is discarded, and the unit takes the next request at once (R52), on the record and table as they
stand. A result written to an ON-BELT record whose arming position is reached already (R68): the record
is armed at once, as an arming event on it finds it with its new verdict and mark, and a mark that it
gains asks for its resolution again (R17), before the unit takes the next request: that order within
the event is the model's choice (log entry 22). -/
def Obligations.CompletionWritesOrDiscards : Prop :=
  (∀ (s : State) (v : Service) (r : Record), BagsKept s → s.resolution.service = some v →
    v.owner = some r.ref → heldRecord s r.ref = some r →
    (r.state = .pending ∨ (r.state = .expected ∧ r.resolutionDue = false)
      ∨ (r.state = .exiting ∧ r.verdictFixed = false)
      ∨ (r.state = .onBelt ∧ r.verdictFixed = false
        ∧ armingReached s { r with verdict := v.verdict } = none)) →
    ((inExpected s r.ref).isSome = true ↔ r.state = .expected) →
    ∃ r' t, exec .resolutionComplete s = .next t ∧ heldRecord t r.ref = some r'
      ∧ r'.stray = (if r.stray = none then v.mark else r.stray)
      ∧ r'.verdict = (if r.state = .expected ∧ r.stray = none ∧ v.mark ≠ none then .unresolved
          else v.verdict)
      ∧ r'.ready = (r.ready || decide (r.state = .pending))
      ∧ r'.discardTimer = (if r.state = .pending ∧ r.ready = false then some 0 else r.discardTimer)
      ∧ r'.tag = r.tag ∧ r'.state = r.state ∧ r'.lead = r.lead ∧ r'.trail = r.trail
      ∧ r'.refusals = r.refusals ∧ r'.verdictFixed = r.verdictFixed
      ∧ (∀ other, other ≠ r.ref → heldRecord t other = heldRecord s other)
      ∧ t.resolution.exceptions = s.resolution.exceptions ∧ t.supervision = s.supervision
      ∧ t.outlets = s.outlets ∧ t.position = s.position ∧ t.start = s.start ∧ t.line = s.line)
    ∧ (∀ (s : State) (v : Service), s.resolution.service = some v →
    (∀ ref r, v.owner = some ref → heldRecord s ref = some r →
      r.state = .armed ∨ r.state = .diverting ∨ (r.state = .expected ∧ r.resolutionDue = true)
        ∨ ((r.state = .onBelt ∨ r.state = .exiting) ∧ r.verdictFixed = true)) →
    ∃ t, exec .resolutionComplete s = .next t
      ∧ t = { s with resolution := t.resolution }
      ∧ t.resolution.exceptions = s.resolution.exceptions
      ∧ (s.resolution.requests = [] → t.resolution.service = none ∧ t.resolution.requests = [])
      ∧ (∀ ref rest r, s.resolution.requests = ref :: rest → heldRecord s ref = some r →
          t.resolution.requests = rest
            ∧ t.resolution.service = some ⟨some ref, (resolve s r).1, (resolve s r).2⟩))
    ∧ (∀ (s w : State) (v : Service) (r : Record) (k : OutletNo), BagsKept s → s.start.node = .run →
    s.resolution.service = some v → v.owner = some r.ref → inTable s r.ref = some r →
    r.state = .onBelt → r.verdictFixed = false →
    armingReached s { r with verdict := v.verdict } = some k →
    w = { s with track := { s.track with
      table := updateIn s.track.table r.ref fun x =>
        { x with verdict := v.verdict, stray := if x.stray = none then v.mark else x.stray } } } →
    ∃ a r' t, exec (.arming r.ref) w = .next a ∧ inTable a r.ref = some r' ∧ r'.verdictFixed = true
      ∧ exec .resolutionComplete s = .next t ∧ t = { a with resolution := t.resolution }
      ∧ t.resolution.exceptions = s.resolution.exceptions
      ∧ ∀ waiting, waiting = s.resolution.requests
          ++ (if r.stray = none ∧ r'.stray ≠ none ∧ r.ref ∉ s.resolution.requests then [r.ref] else []) →
        (waiting = [] → t.resolution.service = none ∧ t.resolution.requests = [])
          ∧ ∀ ref rest x, waiting = ref :: rest → heldRecord a ref = some x →
            t.resolution.requests = rest
              ∧ t.resolution.service = some ⟨some ref, (resolve s x).1, (resolve s x).2⟩)

/-- A CABIN frame (R45) from the manifest station leaves its entries, five bytes each, to be applied one by
one, in their order behind any that wait (that they wait in a list is the model's choice, log entry 8);
one from another station is foreign and is not acted on. An invalid entry (R46), its kind above 3, its
cabin or a REDIRECT's target out of range, is counted in dropped exceptions and changes nothing; those
that no row of the table names are counted when they stand at the head (log entry 8). A valid CANCELLED,
HOLD or REDIRECT entry that passes the filter (R47, R51) is stored or replaces the entry for its cabin,
in ascending order; each record with that cabin and a verdict not fixed has its resolution asked for,
behind one in service even where that is its own (R58, R61), or, in the expected list, is due with
verdict UNRESOLVED. -/
def Obligations.CabinEntriesAreStored : Prop :=
  (∀ (s : State) (body : List Byte) (f : InFrame), s.start.node = .run →
    handedFrame s .cabin body = some f →
    (f.source ≠ s.start.image.manifest →
        exec (.cabinFrame body) s
          = .next { frameOver s with supervision := raised .foreignFrames s.supervision })
      ∧ (f.source = s.start.image.manifest →
        ∃ new : List CabinEntry, 5 * new.length = f.payload.length
          ∧ (∀ i e, new[i]? = some e →
            e.cabin = payloadByte f.payload (5 * i) * 256 + payloadByte f.payload (5 * i + 1)
              ∧ e.kind = payloadByte f.payload (5 * i + 2)
              ∧ e.target
                = payloadByte f.payload (5 * i + 3) * 256 + payloadByte f.payload (5 * i + 4))
          ∧ ∀ all, all = s.resolution.cabinEntries ++ new →
            exec (.cabinFrame body) s = .next { frameOver s with
              resolution := { s.resolution with cabinEntries := all.dropWhile rowless }
              supervision := raisedTimes .droppedExceptions (all.takeWhile rowless).length
                s.supervision }))
    ∧ (∀ (s : State) (c : Instr) (e : CabinEntry) (rest : List CabinEntry), s.start.node = .run →
    s.resolution.cabinEntries = e :: rest →
    (c = .cabinEntryClear ∧ e.kind = 0 ∨ c = .cabinEntryCancelled ∧ e.kind = 1
      ∨ c = .cabinEntryHold ∧ e.kind = 2 ∨ c = .cabinEntryRedirect ∧ e.kind = 3) →
    (e.cabin < 1000 ∨ 19999 < e.cabin ∨ (e.kind = 3 ∧ (e.target < 1000 ∨ 19999 < e.target))) →
    exec c s = .next { s with
      resolution := { s.resolution with cabinEntries := rest.dropWhile rowless }
      supervision := raisedTimes .droppedExceptions ((rest.takeWhile rowless).length + 1)
        s.supervision })
    ∧ (∀ (s : State) (c : Instr) (e : CabinEntry) (kind : ExceptionKind) (rest : List CabinEntry),
    BagsKept s → s.start.node = .run → s.resolution.cabinEntries = e :: rest →
    (c = .cabinEntryCancelled ∧ e.kind = 1 ∧ kind = .cancelled
      ∨ c = .cabinEntryHold ∧ e.kind = 2 ∧ kind = .hold
      ∨ c = .cabinEntryRedirect ∧ e.kind = 3 ∧ kind = .redirect e.target
        ∧ 1000 ≤ e.target ∧ e.target ≤ 19999) →
    1000 ≤ e.cabin → e.cabin ≤ 19999 →
    (∃ w ∈ s.start.image.windows, (w.base ≤ e.cabin ∧ e.cabin ≤ w.limit)
      ∨ (e.kind = 3 ∧ w.base ≤ e.target ∧ e.target ≤ w.limit)) →
    ((exceptionFor s e.cabin).isSome = true ∨ s.resolution.exceptions.length < 256) →
    ∃ t, exec c s = .next t
      ∧ (∀ x, exceptionFor t x = if x = e.cabin then some ⟨e.cabin, kind⟩ else exceptionFor s x)
      ∧ ExceptionsAscending t
      ∧ t.resolution.cabinEntries = rest.dropWhile rowless
      ∧ t.supervision
        = raisedTimes .droppedExceptions (rest.takeWhile rowless).length s.supervision
      ∧ (∀ r ∈ s.track.table ++ s.handoff.pendingOffers, r.verdictFixed = false →
          r.tag.map (·.cabin) = some e.cabin → Requested s t r.ref)
      ∧ (∀ r ∈ s.handoff.expected, r.verdictFixed = false → r.tag.map (·.cabin) = some e.cabin →
          ∃ r', inExpected t r.ref = some r' ∧ r'.resolutionDue = true ∧ r'.verdict = .unresolved)
      ∧ t.track = s.track ∧ t.handoff.pendingOffers = s.handoff.pendingOffers
      ∧ t.position = s.position ∧ t.outlets = s.outlets ∧ t.start = s.start ∧ t.line = s.line)

/-- A CLEAR, and a valid entry of another kind that does not pass the filter, remove the entry for their
cabin if there is one (R48, R50); a removal asks for the resolution of each record with that cabin and a
verdict not fixed, behind one in service (R58, R61), or makes it due in the expected list (R51). A
CANCELLED, HOLD or REDIRECT entry with no place in a full table (R49) is dropped: the table stays, no
request is raised, the dropped exceptions counter rises and EXCEPTION OVERRUN is set. Entries that no row
of the table names and that then stand at the head are counted within the event of this entry: that is
the model's choice (log entry 8), where the rules make each entry an event of its own (R45). -/
def Obligations.ExceptionsAreRemovedOrDropped : Prop :=
  (∀ (s : State) (c : Instr) (e : CabinEntry) (rest : List CabinEntry),
    BagsKept s → s.start.node = .run → s.resolution.cabinEntries = e :: rest →
    1000 ≤ e.cabin → e.cabin ≤ 19999 →
    (c = .cabinEntryClear ∧ e.kind = 0
      ∨ (c = .cabinEntryCancelled ∧ e.kind = 1 ∨ c = .cabinEntryHold ∧ e.kind = 2)
        ∧ (∀ w ∈ s.start.image.windows, ¬(w.base ≤ e.cabin ∧ e.cabin ≤ w.limit))
      ∨ c = .cabinEntryRedirect ∧ e.kind = 3 ∧ 1000 ≤ e.target ∧ e.target ≤ 19999
        ∧ (∀ w ∈ s.start.image.windows, ¬(w.base ≤ e.cabin ∧ e.cabin ≤ w.limit)
          ∧ ¬(w.base ≤ e.target ∧ e.target ≤ w.limit))) →
    ∃ t, exec c s = .next t
      ∧ (∀ x, exceptionFor t x = if x = e.cabin then none else exceptionFor s x)
      ∧ (exceptionFor s e.cabin = none → t.resolution.exceptions = s.resolution.exceptions
          ∧ t.resolution.requests = s.resolution.requests ∧ t.handoff = s.handoff)
      ∧ ((exceptionFor s e.cabin).isSome = true →
          (∀ r ∈ s.track.table ++ s.handoff.pendingOffers, r.verdictFixed = false →
            r.tag.map (·.cabin) = some e.cabin → Requested s t r.ref)
          ∧ (∀ r ∈ s.handoff.expected, r.verdictFixed = false →
            r.tag.map (·.cabin) = some e.cabin →
            ∃ r', inExpected t r.ref = some r' ∧ r'.resolutionDue = true ∧ r'.verdict = .unresolved))
      ∧ t.resolution.cabinEntries = rest.dropWhile rowless
      ∧ t.supervision
        = raisedTimes .droppedExceptions (rest.takeWhile rowless).length s.supervision
      ∧ t.handoff.pendingOffers = s.handoff.pendingOffers
      ∧ t.track = s.track ∧ t.position = s.position ∧ t.outlets = s.outlets
      ∧ t.start = s.start ∧ t.line = s.line)
    ∧ (∀ (s : State) (c : Instr) (e : CabinEntry) (rest : List CabinEntry), s.start.node = .run →
    s.resolution.cabinEntries = e :: rest → 1000 ≤ e.cabin → e.cabin ≤ 19999 →
    (c = .cabinEntryCancelled ∧ e.kind = 1 ∨ c = .cabinEntryHold ∧ e.kind = 2
      ∨ c = .cabinEntryRedirect ∧ e.kind = 3 ∧ 1000 ≤ e.target ∧ e.target ≤ 19999) →
    (∃ w ∈ s.start.image.windows, (w.base ≤ e.cabin ∧ e.cabin ≤ w.limit)
      ∨ (e.kind = 3 ∧ w.base ≤ e.target ∧ e.target ≤ w.limit)) →
    exceptionFor s e.cabin = none → 256 ≤ s.resolution.exceptions.length →
    exec c s = .next { s with
      resolution := { s.resolution with cabinEntries := rest.dropWhile rowless }
      supervision := raisedTimes .droppedExceptions (rest.takeWhile rowless).length
        { raised .droppedExceptions s.supervision with
          flags := { (raised .droppedExceptions s.supervision).flags with
            exceptionOverrun := true } } })

/-! ## Outlets -/

/-- Arming that refuses (R68, R69, R70): a bag whose trailing edge has not passed, or longer than the
outlet's maximum, is refused OVERSIZE and marked so where it bore no mark; otherwise a gap ahead or
behind below the band's minimum refuses it GAP. The record is PASS and fixed, with one refusal more. -/
def Obligations.ArmingRefusesLongAndClose : Prop :=
  ∀ (s : State) (r : Record) (k : OutletNo) (lead : Position) (cause : RefusalCause) (g : Nat),
    BagsKept s → s.start.node = .run → inTable s r.ref = some r → r.lead = some lead →
    armingReached s r = some k → g = minGap s.start.image s.position.band →
    (cause = .oversize ∧ (r.trail = none
        ∨ ∃ n, r.length = some n ∧ (s.start.image.outlets.get k).maxLength < n)
      ∨ cause = .gap ∧ ∃ trail n, r.trail = some trail ∧ r.length = some n
        ∧ n ≤ (s.start.image.outlets.get k).maxLength
        ∧ ((∃ p, precedingIn s.track.table r.ref = some p
              ∧ ∀ q, p.trail = some q → dist q lead < g)
          ∨ (∃ f l, followingIn s.track.table r.ref = some f ∧ f.lead = some l ∧ dist trail l < g)
          ∨ (followingIn s.track.table r.ref = none ∧ dist trail s.position.counter < g))) →
    ∃ r' t, exec (.arming r.ref) s = .next t ∧ inTable t r.ref = some r'
      ∧ r' = { refusedAs s.start.station cause r with
          stray := if cause = .oversize ∧ r.stray = none then some .oversize else r.stray }
      ∧ (∀ other, other ≠ r.ref → inTable t other = inTable s other)
      ∧ t.supervision = raised .refusals s.supervision
      ∧ t.outlets = s.outlets ∧ t.position = s.position ∧ t.start = s.start ∧ t.line = s.line
      ∧ t.handoff = s.handoff ∧ t.induction = s.induction

/-- Arming that passes its length and gap checks (R71, R72): the pusher lead is the lead time of the band
times the speed over 80, rounded up and at most the arming distance; the fire position is the lead
position plus the outlet's distance plus half the length less that lead. Ahead of the current position
it arms the record; at it, the fire event follows at once; behind it, the record passes without a
refusal. -/
def Obligations.ArmingSetsFirePosition : Prop :=
  ∀ (s : State) (r : Record) (k : OutletNo) (lead trail fire : Position)
    (n g pl t : Nat) (o : OutletConfig) (armed : State),
    BagsKept s → s.start.node = .run → inTable s r.ref = some r → r.lead = some lead →
    r.trail = some trail → r.length = some n → armingReached s r = some k →
    o = s.start.image.outlets.get k → n ≤ o.maxLength →
    g = minGap s.start.image s.position.band →
    (∀ p, precedingIn s.track.table r.ref = some p →
      ∃ q, p.trail = some q ∧ (g : Int) ≤ dist q lead) →
    (∀ f, followingIn s.track.table r.ref = some f →
      ∃ l, f.lead = some l ∧ (g : Int) ≤ dist trail l) →
    (followingIn s.track.table r.ref = none → (g : Int) ≤ dist trail s.position.counter) →
    t = leadTime o s.position.band * s.position.speed →
    pl = min s.start.image.armDistance (t / 80 + if t % 80 = 0 then 0 else 1) →
    fire = lead + BitVec.ofNat 24 (o.distance + n / 2) - BitVec.ofNat 24 pl →
    armed = { s with track := { s.track with
      table := updateIn s.track.table r.ref fun x =>
        { x with state := .armed, verdictFixed := true, firePosition := some fire } } } →
    (dist fire s.position.counter < 0 → exec (.arming r.ref) s = .next armed)
      ∧ (dist fire s.position.counter = 0 → exec (.arming r.ref) s = exec (.fire r.ref) armed)
      ∧ (0 < dist fire s.position.counter →
        exec (.arming r.ref) s = .next { s with track := { s.track with
          table := updateIn s.track.table r.ref fun x =>
            { x with verdict := .pass, verdictFixed := true } } })

/-- A fire event at an open outlet whose pusher is HOME (R74): the pusher is driven, its dwell timer starts,
and the record is DIVERTING, last of the outlet's, with its confirm timer started. A fire event at an
outlet that is not open, or whose pusher is not HOME (R75): the record is refused with the first cause
of FULL, HELD, NOCART, FAULTED and BUSY that applies, and the pusher is not driven. -/
def Obligations.FireExtendsOrRefuses : Prop :=
  (∀ (s : State) (r : Record) (k : OutletNo) (fire : Position), BagsKept s → s.start.node = .run →
    inTable s r.ref = some r → r.state = .armed → verdictOutlet r.verdict = some k →
    r.firePosition = some fire → reached s fire = true →
    (s.start.image.outlets.get k).role ≠ .unused →
    (s.outlets.get k).fill < (s.start.image.outlets.get k).capacity →
    (s.outlets.get k).holdSwitch = false → (s.outlets.get k).lineHold = false →
    (s.outlets.get k).cartPresent = true → (s.outlets.get k).faulted = false →
    (s.outlets.get k).pusher = .home →
    ∃ t, exec (.fire r.ref) s = .next t ∧ pusherOutput t k = true
      ∧ t = { s with
          track := { s.track with
            table := updateIn s.track.table r.ref fun x =>
              { x with state := .diverting, confirmTimer := some 0 } }
          outlets := s.outlets.set k { s.outlets.get k with
            pusher := .extended, dwellTimer := some 0
            diverting := (s.outlets.get k).diverting ++ [r.ref] } })
    ∧ (∀ (s : State) (r : Record) (k : OutletNo) (fire : Position) (o : Outlet) (cause : RefusalCause),
    BagsKept s → s.start.node = .run → inTable s r.ref = some r → r.state = .armed →
    verdictOutlet r.verdict = some k → r.firePosition = some fire → reached s fire = true →
    (s.start.image.outlets.get k).role ≠ .unused → o = s.outlets.get k →
    cause = (if (s.start.image.outlets.get k).capacity ≤ o.fill then .full
      else if o.holdSwitch = true ∨ o.lineHold = true then .held
      else if o.cartPresent = false then .noCart
      else if o.faulted = true then .faulted else .busy) →
    (cause ≠ .busy ∨ o.pusher ≠ .home) →
    exec (.fire r.ref) s = .next { s with
      track := { s.track with
        table := updateIn s.track.table r.ref (refusedAs s.start.station cause) }
      supervision := raised .refusals s.supervision })

/-- The pusher's timers (R77, R79): the dwell's end releases the output, and the pusher is HOME where its
sensor is asserted and RETRACTING with its home timer started where it is not; the home timer's end in
RETRACTING makes it NOT HOME and the outlet FAULTED. The home sensor's edges (R78), by pusher state;
outside RUN and at an UNUSED outlet only the level is followed. FAULTED stays as it is. The cart sensor
and the hold switch (R66, R85), followed in every node state: a cart's arrival sets the fill count to 0,
its removal leaves the count; the switch holds or frees the outlet. Nothing else changes. -/
def Obligations.OutletInputsAndTimers : Prop :=
  (∀ (s : State) (k : OutletNo) (o : Outlet) (n : Nat), s.start.node = .run →
    (s.start.image.outlets.get k).role ≠ .unused → o = s.outlets.get k →
    (o.pusher = .extended → o.dwellTimer = some n →
        ∃ t, exec (.dwellExpiry k) s = .next t ∧ pusherOutput t k = false
          ∧ t = { s with outlets := s.outlets.set k (if o.homeSensor = true
              then { o with pusher := .home, dwellTimer := none }
              else { o with pusher := .retracting, dwellTimer := none, homeTimer := some 0 }) })
      ∧ (o.pusher = .retracting → o.homeTimer = some n →
        exec (.homeTimeout k) s = .next { s with
          outlets := s.outlets.set k
            { o with pusher := .notHome, homeTimer := none, faulted := true } }))
    ∧ (∀ (s : State) (k : OutletNo) (asserted : Bool) (o : Outlet), s.start.resetHeld = false →
    o = s.outlets.get k →
    ∃ p timer, exec (.homeSensorEdge k asserted) s = .next { s with
        outlets := s.outlets.set k
          { o with homeSensor := asserted, pusher := p, homeTimer := timer } }
      ∧ (s.start.node = .run ∧ (s.start.image.outlets.get k).role ≠ .unused →
          (p, timer) = match o.pusher, asserted with
            | .home, false => (.retracting, some 0)
            | .retracting, true => (.home, none)
            | .notHome, true => (.home, o.homeTimer)
            | other, _ => (other, o.homeTimer))
      ∧ (s.start.node ≠ .run ∨ (s.start.image.outlets.get k).role = .unused →
          p = o.pusher ∧ timer = o.homeTimer))
    ∧ (∀ (s : State) (k : OutletNo), s.start.resetHeld = false →
    exec (.cartSwap k) s
        = .next { s with outlets := s.outlets.set k { s.outlets.get k with
            cartPresent := true, fill := 0 } }
      ∧ exec (.cartRemoval k) s
        = .next { s with outlets := s.outlets.set k { s.outlets.get k with cartPresent := false } }
      ∧ ∀ on, exec (.holdSwitchChange k on) s
        = .next { s with outlets := s.outlets.set k { s.outlets.get k with holdSwitch := on } })

/-- An entry to the chute (R81, R84, R100, R101) confirms the oldest DIVERTING record, which leaves the
table as DELIVERED: its counter rises, at a STRAY outlet the strays counter too with a STRAY notice to
the coding station of the record as it stood (bag ref, cabin, tag byte, cause, laps, relabelled, refusal
count and refusals, in seventeen bytes), and the fill count rises, stopping at 255. An entry to the
chute with no DIVERTING record (R81) changes no record: it is counted as unexpected, and the fill count
rises. -/
def Obligations.ChuteEntriesDeliver : Prop :=
  (∀ (s : State) (k : OutletNo) (r : Record) (rest : List BagRef) (payload : List Byte),
    BagsKept s → s.start.node = .run → (s.start.image.outlets.get k).role ≠ .unused →
    (s.outlets.get k).diverting = r.ref :: rest → inTable s r.ref = some r →
    StrayPayloadOf r payload →
    ∃ t, exec (.chuteEntry k) s = .next t
      ∧ SameBags t.track.table (s.track.table.filter fun x => decide (x.ref ≠ r.ref))
      ∧ heldRecord t r.ref = none ∧ (∀ j, r.ref ∉ (t.outlets.get j).diverting)
      ∧ r.ref ∉ t.resolution.requests
      ∧ (t.outlets.get k).fill
        = (if (s.outlets.get k).fill < 255 then (s.outlets.get k).fill + 1 else (s.outlets.get k).fill)
      ∧ (∀ j, (t.outlets.get j).pusher = (s.outlets.get j).pusher
          ∧ (j ≠ k → (t.outlets.get j).fill = (s.outlets.get j).fill))
      ∧ t.counter (.delivered k) = nextCount (s.counter (.delivered k))
      ∧ t.counter .unexpectedEntries = s.counter .unexpectedEntries
      ∧ t.counter .straysDelivered
        = (if (s.start.image.outlets.get k).role = .stray then nextCount (s.counter .straysDelivered)
          else s.counter .straysDelivered)
      ∧ (s.supervision.crowded = false → s.line.notices.length < 8 →
          t.line.notices = s.line.notices
            ++ if (s.start.image.outlets.get k).role = .stray
              then [⟨s.start.image.coding, .stray, payload⟩] else [])
      ∧ t.induction.permit = permitConditions t
      ∧ t.position = s.position ∧ t.start = s.start
      ∧ t.resolution.exceptions = s.resolution.exceptions ∧ t.track.bagSeq = s.track.bagSeq)
    ∧ (∀ (s : State) (k : OutletNo), s.start.node = .run →
    (s.start.image.outlets.get k).role ≠ .unused → (s.outlets.get k).diverting = [] →
    ∃ t, exec (.chuteEntry k) s = .next t
      ∧ t.counter .unexpectedEntries = nextCount (s.counter .unexpectedEntries)
      ∧ (∀ c, c ≠ .unexpectedEntries → t.counter c = s.counter c)
      ∧ t.outlets = s.outlets.set k { s.outlets.get k with
          fill := if (s.outlets.get k).fill < 255 then (s.outlets.get k).fill + 1
            else (s.outlets.get k).fill }
      ∧ ((s.outlets.get k).fill = 254 → t.supervision.flags.countLimit = true)
      ∧ t.track = s.track ∧ t.resolution = s.resolution ∧ t.position = s.position
      ∧ t.start = s.start)

/-- A DIVERTING record whose confirm timer expires (R82, R126) is refused PUSHMISS and is ON-BELT again, or
EXITING where it had passed its offer point; the pusher goes on with its cycle. Where it had passed its
offer point and its segment exit is reached already, it leaves as ABANDONED at once (R127), the refusal
counted. -/
def Obligations.ConfirmTimeoutIsPushMiss : Prop :=
  ∀ (s : State) (r : Record) (n : Nat) (gone : Prop), BagsKept s → s.start.node = .run →
    inTable s r.ref = some r → r.state = .diverting → r.confirmTimer = some n →
    (gone ↔ r.pastOfferPoint = true
      ∧ ∃ p, r.trail = some p ∧ reached s (ahead p s.start.image.segmentLength) = true) →
    (¬gone →
      ∃ r' t, exec (.confirmTimeout r.ref) s = .next t ∧ inTable t r.ref = some r'
        ∧ apartFromOffer r' = apartFromOffer { refusedAs s.start.station .pushMiss r with
            state := if r.pastOfferPoint = true then .exiting else .onBelt }
        ∧ t.track.table.map (·.ref) = s.track.table.map (·.ref)
        ∧ (∀ k, t.outlets.get k = { s.outlets.get k with
            diverting := (s.outlets.get k).diverting.filter fun x => decide (x ≠ r.ref) })
        ∧ t.supervision.counters = (raised .refusals s.supervision).counters
        ∧ t.resolution = s.resolution ∧ t.position = s.position ∧ t.start = s.start
        ∧ t.line.answers = s.line.answers ∧ t.line.notices = s.line.notices)
      ∧ (gone →
        ∃ t, exec (.confirmTimeout r.ref) s = .next t ∧ LeavesAbandoned s t r
          ∧ t.counter .refusals = nextCount (s.counter .refusals))

/-! ## Handoff -/

/-- The offer point (R126, R128): an ON-BELT record becomes EXITING with its verdict kept, a DIVERTING one
is marked as past it; where no record holds the outbound offer, the front-most EXITING record that has
not held it takes it, with no attempt made. The segment exit of an EXITING record (R127, R134, R128,
R119): it leaves the table as ABANDONED and the abandoned counter rises. Where it held the outbound
offer, or none was held, the offer passes to the front-most EXITING record that has not held it, with no
attempt made, and its OFFER frame in WAIT-GAP or BACKOFF is withdrawn, that of an offer already spent
too, told as log entry 20 (DEDUCED) says; another record's offer stays. An ON-BELT record whose exit is
reached with its offer point leaves as ABANDONED at once (R127). -/
def Obligations.OfferPointAndSegmentExit : Prop :=
  (∀ (s : State) (r : Record), BagsKept s → s.start.node = .run → inTable s r.ref = some r →
    offerPointReached s r = true →
    (r.state = .onBelt → ∀ p, r.trail = some p →
      reached s (ahead p s.start.image.segmentLength) = false) →
    ∃ r' t, exec (.offerPoint r.ref) s = .next t ∧ inTable t r.ref = some r'
      ∧ apartFromOffer r' = apartFromOffer { r with
          pastOfferPoint := true, state := if r.state = .onBelt then .exiting else r.state }
      ∧ t.track.table.map (·.ref) = s.track.table.map (·.ref)
      ∧ (∀ other, other ≠ r.ref →
          (inTable t other).map apartFromOffer = (inTable s other).map apartFromOffer)
      ∧ (r.state = .onBelt → s.handoff.outbound = none →
          t.handoff.outbound.map (fun o => (o.ref, o.attempts))
            = (s.track.table.find? fun x =>
                decide (x.state = .exiting ∨ x.ref = r.ref) && !x.heldOffer).map
              fun x => (x.ref, 0))
      ∧ (∀ o, s.handoff.outbound = some o →
          t.handoff.outbound.map (fun o => (o.ref, o.attempts)) = some (o.ref, o.attempts))
      ∧ t.supervision.counters = s.supervision.counters ∧ t.resolution = s.resolution
      ∧ t.outlets = s.outlets ∧ t.position = s.position ∧ t.start = s.start)
    ∧ (∀ (s : State) (r : Record) (p : Position) (c : Instr), BagsKept s →
    s.start.node = .run → inTable s r.ref = some r → r.trail = some p →
    reached s (ahead p s.start.image.segmentLength) = true →
    (c = .segmentExit r.ref ∧ r.state = .exiting
      ∨ c = .offerPoint r.ref ∧ r.state = .onBelt ∧ offerPointReached s r = true) →
    ∃ t, exec c s = .next t ∧ LeavesAbandoned s t r)

/-- The end of an attempt without a TAKE or SPURN (R130): an expired reply window is a no-answer, a WAIT is
not counted; with attempts left the offer rests, and without it is spent. The end of the repeat interval
makes it DUE for the arbiter. That a WAIT addressed to 31 counts as one addressed to this station is the
model's choice (log entry 23). -/
def Obligations.AttemptsRestOrAreSpent : Prop :=
  ∀ (s : State) (o : Outbound) (n : Nat) (body : List Byte) (f : InFrame) (next : OfferStage),
    s.handoff.outbound = some o →
    next = (if o.attempts < s.start.image.attemptLimit then .resting 0 else .spent) →
    (o.stage = .listening n →
        exec .replyWindowExpiry s = .next { s with
          supervision := raised .noAnswers s.supervision
          handoff := { s.handoff with outbound := some { o with stage := next } } })
      ∧ (o.stage = .resting n →
        exec .repeatIntervalExpiry s = .next (arbitrate { s with
          handoff := { s.handoff with outbound := some { o with stage := .due } } }))
      ∧ (s.start.node = .run → handedFrame s .wait body = some f →
          f.source = s.start.image.downstream → payloadRef f.payload = o.ref →
        (o.stage = .listening n →
          exec (.waitReceived body) s = .next { frameOver s with
            handoff := { s.handoff with outbound := some { o with stage := next } } })
        ∧ ((∀ m, o.stage ≠ .listening m) → exec (.waitReceived body) s = .next (frameOver s)))

/-- A TAKE, or a SPURN for a record not stray-bound (R131, R132), from the downstream station for the
outstanding offer hands the record over: it leaves the table, the spurned counter rises for a SPURN, and
the outbound offer passes to the front-most EXITING record that has not held it. An OFFER frame in
WAIT-GAP or BACKOFF is withdrawn and the turn passes on (R119, R123). A frame being sent goes on to its
end. A crowded node whose occupancy falls to the low-water mark is crowded no longer and queues CROWD
off with the occupancy (R158, R159); no other notice is queued. That an answer addressed to 31 counts as
one addressed to this station is the model's choice (log entry 23). -/
def Obligations.AnswersHandTheRecordOver : Prop :=
  ∀ (s : State) (c : Instr) (k : FrameKind) (body : List Byte) (f : InFrame) (o : Outbound)
    (r : Record), BagsKept s → s.start.node = .run →
    (c = .takeReceived body ∧ k = .take ∨ c = .spurnReceived body ∧ k = .spurn ∧ r.stray = none) →
    handedFrame s k body = some f → f.source = s.start.image.downstream →
    s.handoff.outbound = some o → payloadRef f.payload = o.ref → o.stage ≠ .spent →
    inTable s o.ref = some r →
    ∃ t, exec c s = .next t
      ∧ SameBags t.track.table (s.track.table.filter fun x => decide (x.ref ≠ o.ref))
      ∧ heldRecord t o.ref = none ∧ o.ref ∉ t.resolution.requests
      ∧ t.handoff.outbound.map (fun x => (x.ref, x.attempts))
        = ((s.track.table.filter fun x => decide (x.ref ≠ o.ref)).find? fun x =>
            decide (x.state = .exiting) && !x.heldOffer).map (fun x => (x.ref, 0))
      ∧ (∃ u, t = arbitrate u ∧ OfferWithdrawn s u)
      ∧ (∀ h, s.line.transmitter = .sending h → t.line.transmitter = .sending h)
      ∧ t.counter .spurnedOffers
        = (if k = .spurn then nextCount (s.counter .spurnedOffers) else s.counter .spurnedOffers)
      ∧ t.counter .abandoned = s.counter .abandoned
      ∧ (∀ left, left = s.track.table.length - 1 →
          (t.supervision.crowded = true ↔
            s.supervision.crowded = true ∧ s.start.image.lowWater < left)
          ∧ (s.line.notices.length < 8 →
            t.line.notices = s.line.notices
              ++ if s.supervision.crowded = true ∧ left ≤ s.start.image.lowWater
                then [⟨31, .crowd, [0, byteOf left]⟩] else []))
      ∧ t.induction.permit = permitConditions t
      ∧ t.line.receiver = .hunt ∧ t.handoff.expected = s.handoff.expected
      ∧ t.handoff.pendingOffers = s.handoff.pendingOffers
      ∧ t.resolution.exceptions = s.resolution.exceptions
      ∧ t.position = s.position ∧ t.start = s.start

/-- A SPURN for a stray-bound record (R132): the offer is spent, the record stays EXITING until its exit,
and the spurned counter rises; an OFFER frame in WAIT-GAP or BACKOFF is withdrawn and the turn passes on
(R119, R123), and one being sent goes on. Answers that match no outstanding offer (R133): one from
another station than the downstream one is foreign; a late one is ignored and not counted. That an
answer addressed to 31 counts as one addressed to this station is the model's choice (log entry 23). -/
def Obligations.SpurnedAndLateAnswers : Prop :=
  (∀ (s : State) (body : List Byte) (f : InFrame) (o : Outbound) (r : Record), LineAgrees s →
    s.start.node = .run → handedFrame s .spurn body = some f →
    f.source = s.start.image.downstream → s.handoff.outbound = some o →
    payloadRef f.payload = o.ref → o.stage ≠ .spent → inTable s o.ref = some r → r.stray ≠ none →
    ∃ t, exec (.spurnReceived body) s = .next t
      ∧ t.handoff = { s.handoff with outbound := some { o with stage := .spent } }
      ∧ t.track = s.track ∧ t.resolution = s.resolution
      ∧ t.counter .spurnedOffers = nextCount (s.counter .spurnedOffers)
      ∧ (∃ u, t = arbitrate u ∧ OfferWithdrawn s u)
      ∧ (∀ h, s.line.transmitter = .sending h → t.line.transmitter = .sending h)
      ∧ t.line.answers = s.line.answers ∧ t.line.notices = s.line.notices
      ∧ t.outlets = s.outlets ∧ t.position = s.position ∧ t.start = s.start)
    ∧ (∀ (s : State) (c : Instr) (k : FrameKind) (body : List Byte) (f : InFrame),
    s.start.node = .run →
    (c = .takeReceived body ∧ k = .take ∨ c = .waitReceived body ∧ k = .wait
      ∨ c = .spurnReceived body ∧ k = .spurn) →
    handedFrame s k body = some f →
    (f.source ≠ s.start.image.downstream →
        exec c s = .next { frameOver s with supervision := raised .foreignFrames s.supervision })
      ∧ (f.source = s.start.image.downstream →
        (∀ o, s.handoff.outbound = some o → o.ref ≠ payloadRef f.payload ∨ o.stage = .spent) →
        exec c s = .next (frameOver s)))

/-- A first OFFER for a bag ref that is not held (R138, R139, R99), with room and segment clear not held: a
RESOLVING entry at the tail of the pending-offer queue with the offered fields, marked LAPS at the lap
limit; its resolution is asked for, and the answer is WAIT. -/
def Obligations.NewOfferEntersQueue : Prop :=
  ∀ (s : State) (body : List Byte) (f : InFrame) (o : Offered), BagsKept s → s.start.node = .run →
    s.start.clearHeld = false → handedFrame s .offer body = some f → f.dest ≠ 31 →
    decodeOffer f.payload = some o → heldRecord s o.ref = none →
    s.handoff.pendingOffers.length < 4 → s.line.answers.length < 4 →
    ∃ p t, exec (.offerReceived body) s = .next t
      ∧ t.handoff.pendingOffers = s.handoff.pendingOffers ++ [p]
      ∧ carried p = { o with stray :=
          if o.stray = none ∧ s.start.image.lapLimit ≤ o.laps then some .laps else o.stray }
      ∧ p.state = .pending ∧ p.ready = false ∧ p.verdict = .unresolved ∧ p.discardTimer = none
      ∧ Requested s t o.ref
      ∧ t.line.answers = s.line.answers ++ [⟨f.source, .wait, refBytes o.ref⟩]
      ∧ t.handoff.expected = s.handoff.expected ∧ t.track = s.track
      ∧ t.supervision.counters = s.supervision.counters ∧ t.outlets = s.outlets
      ∧ t.position = s.position ∧ t.start = s.start
      ∧ t.resolution.exceptions = s.resolution.exceptions

/-- A repeated OFFER for a READY entry, with room in the expected list (R138, R140, R141, R34): the entry
takes the offered fields and goes to the tail of the expected list with its deadline; the answer is
TAKE. Its mark is the one offered, and where none is offered a mark that it bore is cleared; where its
laps or its mark have changed, no mark is offered and the laps are at the limit it is marked LAPS. The
duplicate check then marks it, and each other record of the track table and the expected list with its
cabin and letter, DUPLICATE where it bears no mark. -/
def Obligations.RepeatedOfferIsTaken : Prop :=
  ∀ (s : State) (body : List Byte) (f : InFrame) (o : Offered) (r : Record)
    (duplicate : Bool), BagsKept s → StatesAgree s → s.start.node = .run →
    handedFrame s .offer body = some f → f.dest ≠ 31 →
    decodeOffer f.payload = some o → inPendingOffers s o.ref = some r → r.ready = true →
    s.handoff.expected.length < 8 → s.line.answers.length < 4 →
    duplicate = (s.track.table ++ s.handoff.expected).any (twin o.tag) →
    ∃ r' t, exec (.offerReceived body) s = .next t
      ∧ t.handoff.expected.map (·.ref) = s.handoff.expected.map (·.ref) ++ [o.ref]
      ∧ t.handoff.pendingOffers.map (·.ref)
        = (s.handoff.pendingOffers.map (·.ref)).filter (fun x => decide (x ≠ o.ref))
      ∧ inExpected t o.ref = some r'
      ∧ r'.tag = o.tag ∧ r'.length = o.length ∧ r'.laps = o.laps ∧ r'.refusals = o.refusals
      ∧ r'.lengthDoubt = o.lengthDoubt ∧ r'.relabelled = o.relabelled
      ∧ r'.stray = (if o.stray ≠ none then o.stray
          else if (r.stray ≠ none ∨ o.laps ≠ r.laps) ∧ s.start.image.lapLimit ≤ o.laps then some .laps
          else if duplicate then some .duplicate else none)
      ∧ (∀ x ∈ s.track.table,
          inTable t x.ref = some (if twin o.tag x then asDuplicate x else x))
      ∧ (∀ x ∈ s.handoff.expected,
          inExpected t x.ref = some (if twin o.tag x then asDuplicateExpected x else x))
      ∧ t.counter .duplicates
        = (if duplicate then nextCount (s.counter .duplicates) else s.counter .duplicates)
      ∧ r'.state = .expected ∧ r'.discardTimer = none
      ∧ r'.deadline = some (ahead s.position.counter s.start.image.expectDistance)
      ∧ o.ref ∉ t.resolution.requests
      ∧ (o.ref ∈ s.resolution.requests → r'.resolutionDue = true ∧ r'.verdict = .unresolved)
      ∧ t.line.answers = s.line.answers ++ [⟨f.source, .take, refBytes o.ref⟩]
      ∧ t.track.table.map (·.ref) = s.track.table.map (·.ref) ∧ t.outlets = s.outlets
      ∧ t.position = s.position ∧ t.start = s.start
      ∧ t.resolution.exceptions = s.resolution.exceptions

/-- A repeated OFFER for an entry that is RESOLVING, or READY with the expected list full (R138, R140,
R142): the entry takes the offered fields and keeps its place, the discard timer of a READY one starts
again, and the answer is WAIT. Its mark is the one offered; where none is offered a mark that it bore is
cleared, and where its laps or its mark have changed and the laps are at the limit it is marked LAPS.
That an OFFER changing the cause of the mark alone leaves the Resolution Unit as it was is the model's
reading (log entry 11, DEDUCED). The other OFFERs (R137, R138): one for a bag ref that the table or the
expected list holds is answered TAKE and its fields are not taken; one for a full queue is answered WAIT
and nothing is entered; one addressed to every station is foreign, and a malformed one is counted, and
neither is answered. -/
def Obligations.OffersThatWaitOrEnterNothing : Prop :=
  (∀ (s : State) (body : List Byte) (f : InFrame) (o : Offered) (r : Record), BagsKept s →
    s.start.node = .run → handedFrame s .offer body = some f → f.dest ≠ 31 →
    decodeOffer f.payload = some o → inPendingOffers s o.ref = some r →
    (r.ready = false ∨ 8 ≤ s.handoff.expected.length) → s.line.answers.length < 4 →
    ∃ r' t, exec (.offerReceived body) s = .next t
      ∧ t.handoff.pendingOffers.map (·.ref) = s.handoff.pendingOffers.map (·.ref)
      ∧ inPendingOffers t o.ref = some r'
      ∧ r'.tag = o.tag ∧ r'.length = o.length ∧ r'.laps = o.laps ∧ r'.refusals = o.refusals
      ∧ r'.lengthDoubt = o.lengthDoubt ∧ r'.relabelled = o.relabelled
      ∧ r'.ready = r.ready ∧ r'.verdict = r.verdict
      ∧ r'.stray = (if o.stray ≠ none then o.stray
          else if (r.stray ≠ none ∨ o.laps ≠ r.laps) ∧ s.start.image.lapLimit ≤ o.laps then some .laps
          else none)
      ∧ r'.discardTimer = (if r.ready then some 0 else r.discardTimer)
      ∧ (o.tag = r.tag → o.stray.isSome = r.stray.isSome → o.laps = r.laps →
          r'.stray = o.stray ∧ t.resolution = s.resolution)
      ∧ (o.tag ≠ r.tag ∨ o.stray.isSome ≠ r.stray.isSome →
          Requested s t o.ref)
      ∧ t.line.answers = s.line.answers ++ [⟨f.source, .wait, refBytes o.ref⟩]
      ∧ t.handoff.expected = s.handoff.expected ∧ t.track = s.track
      ∧ t.supervision.counters = s.supervision.counters ∧ t.outlets = s.outlets
      ∧ t.position = s.position ∧ t.start = s.start)
    ∧ (∀ (s : State) (body : List Byte) (f : InFrame), s.start.node = .run →
    handedFrame s .offer body = some f →
    (f.dest = 31 → exec (.offerReceived body) s
        = .next { frameOver s with supervision := raised .foreignFrames s.supervision })
      ∧ (f.dest ≠ 31 → decodeOffer f.payload = none → exec (.offerReceived body) s
        = .next { frameOver s with supervision := raised .checkErrors s.supervision })
      ∧ (∀ o, f.dest ≠ 31 → decodeOffer f.payload = some o →
        ((inTable s o.ref).isSome = true ∨ (inExpected s o.ref).isSome = true →
          exec (.offerReceived body) s = .next
            (arbitrate (queueAnswer ⟨f.source, .take, refBytes o.ref⟩ (frameOver s))))
        ∧ (heldRecord s o.ref = none →
            4 ≤ s.handoff.pendingOffers.length ∨ s.start.clearHeld = true →
          exec (.offerReceived body) s = .next
            (arbitrate (queueAnswer ⟨f.source, .wait, refBytes o.ref⟩ (frameOver s))))))

/-- The discard timer of a READY entry (R142, R60): the entry is PURGED with any waiting request, and the
pending discards counter rises. The deadline of the head of the expected list (R144, R145): the record
leaves as MISSING, the counter rises, and a MISSING notice with its bag ref, cabin and tag goes to every
station. A next head whose own deadline is not reached stays. -/
def Obligations.InboundRecordsTimeOut : Prop :=
  (∀ (s : State) (r : Record) (n : Nat), BagsKept s → s.start.node = .run →
    inPendingOffers s r.ref = some r → r.ready = true → r.discardTimer = some n →
    (∀ o, s.handoff.outbound = some o → o.ref ≠ r.ref) →
    ∃ t, exec (.discardTimeout r.ref) s = .next t ∧ heldRecord t r.ref = none
      ∧ t.handoff = { s.handoff with
          pendingOffers := s.handoff.pendingOffers.filter fun x => decide (x.ref ≠ r.ref) }
      ∧ t.resolution.requests = s.resolution.requests.filter (fun x => decide (x ≠ r.ref))
      ∧ t.resolution.exceptions = s.resolution.exceptions
      ∧ t.supervision = raised .pendingDiscards s.supervision
      ∧ t.track.table = s.track.table ∧ t.line = s.line ∧ t.induction = s.induction
      ∧ t.position = s.position ∧ t.start = s.start)
    ∧ (∀ (s : State) (r : Record) (rest : List Record) (d : Position), BagsKept s →
    s.start.node = .run → s.handoff.expected = r :: rest → r.deadline = some d →
    reached s d = true → s.line.notices.length < 8 →
    (∀ x y, rest.head? = some x → x.deadline = some y → reached s y = false) →
    (∀ o, s.handoff.outbound = some o → o.ref ≠ r.ref) →
    ∃ t, exec .expectedDeadline s = .next t ∧ heldRecord t r.ref = none
      ∧ t.handoff.expected = rest ∧ t.handoff.pendingOffers = s.handoff.pendingOffers
      ∧ (∃ p, p.length = 5 ∧ TagPlaces r p ∧ t.line.notices = s.line.notices ++ [⟨31, .missing, p⟩])
      ∧ t.supervision.counters = (raised .missing s.supervision).counters
      ∧ t.track.table = s.track.table ∧ t.induction = s.induction
      ∧ t.resolution.exceptions = s.resolution.exceptions
      ∧ t.position = s.position ∧ t.start = s.start)

/-! ## Induction -/

/-- A CODE frame in RUN, by the first case that applies (R156, R157): foreign where it is broadcast or not
from the coding station; SPURN, reason 2, at a node that is no induction node; counted where malformed;
WAIT at a full code queue; otherwise stored at the tail with TAKE. -/
def Obligations.CodesAreTakenByCase : Prop :=
  ∀ (s : State) (body : List Byte) (f : InFrame) (cabin letter : Nat) (u : State),
    s.start.node = .run → handedFrame s .code body = some f → u = frameOver s →
    cabin = payloadByte f.payload 0 * 256 + payloadByte f.payload 1 →
    letter = payloadByte f.payload 2 →
    (f.dest = 31 ∨ f.source ≠ s.start.image.coding →
        exec (.codeReceived body) s
          = .next { u with supervision := raised .foreignFrames s.supervision })
      ∧ (f.dest ≠ 31 → f.source = s.start.image.coding →
        (s.start.image.induction = false →
          exec (.codeReceived body) s
            = .next (arbitrate (queueAnswer ⟨f.source, .spurn, [0, 0, 2]⟩ u)))
        ∧ (s.start.image.induction = true →
          (cabin < 1000 ∨ 19999 < cabin ∨ 7 < letter →
            exec (.codeReceived body) s
              = .next { u with supervision := raised .checkErrors s.supervision })
          ∧ (1000 ≤ cabin → cabin ≤ 19999 → letter ≤ 7 →
            (8 ≤ s.induction.codes.length →
              exec (.codeReceived body) s
                = .next (arbitrate (queueAnswer ⟨f.source, .wait, [0, 0]⟩ u)))
            ∧ (s.induction.codes.length < 8 →
              exec (.codeReceived body) s
                = .next (arbitrate (queueAnswer ⟨f.source, .take, [0, 0]⟩ { u with
                    induction := { s.induction with
                      codes := s.induction.codes ++ [⟨cabin, letter⟩] } }))))))

/-- A watched station is heard by a good CROWD or STATUS frame (R160): its age is 0, it is not silent, and
it is crowded as the frame says; the permit is decided afresh. A malformed frame of a watched station is
counted, and one of another station is passed over. A watched station's age reaches the silence timeout
(R161): its crowded flag is cleared, its silent flag set, its age stops, SILENT WATCH holds, and the
permit is decided afresh. Where no entry of the station is of that age, a frame having set it to 0
first, nothing changes (R162). -/
def Obligations.CrowdViewFollowsStations : Prop :=
  (∀ (s : State) (c : Instr) (k : FrameKind) (body : List Byte) (f : InFrame) (value : Nat)
    (sound : Bool),
    s.start.node = .run → handedFrame s k body = some f →
    (c = .crowdReceived body ∧ k = .crowd ∧ value = payloadByte f.payload 0
        ∧ sound = decide (value ≤ 1 ∧ payloadByte f.payload 1 ≤ 48)
      ∨ c = .statusReceived body ∧ k = .status ∧ value = payloadByte f.payload 7
        ∧ sound = decide (value ≤ 1)) →
    ((∃ e ∈ s.induction.crowdView, e.station = f.source) →
        (sound = true → ∃ t, exec c s = .next t
          ∧ t = { frameOver s with induction := t.induction }
          ∧ t.induction.crowdView = s.induction.crowdView.map (fun e =>
              if e.station = f.source then ⟨e.station, decide (value = 1), false, 0⟩ else e)
          ∧ t.induction.codes = s.induction.codes ∧ t.induction.permit = permitConditions t)
        ∧ (sound = false → exec c s
            = .next { frameOver s with supervision := raised .checkErrors s.supervision }))
      ∧ ((∀ e ∈ s.induction.crowdView, e.station ≠ f.source) → exec c s = .next (frameOver s)))
    ∧ (∀ (s : State) (n : Nat), s.start.node = .run → n ≠ s.start.station →
    ((∃ e ∈ s.induction.crowdView, e.station = n ∧ e.silent = false
        ∧ s.start.image.silenceTimeout * 1000 ≤ e.age) →
      ∃ t, exec (.silenceTimeout n) s = .next t
        ∧ t = { s with induction := t.induction }
        ∧ t.induction.crowdView = s.induction.crowdView.map (fun e =>
            if e.station = n ∧ e.silent = false ∧ s.start.image.silenceTimeout * 1000 ≤ e.age
            then ⟨e.station, false, true, s.start.image.silenceTimeout * 1000⟩ else e)
        ∧ t.induction.codes = s.induction.codes ∧ t.induction.permit = permitConditions t
        ∧ silentWatch t = true)
      ∧ ((∀ e ∈ s.induction.crowdView, e.station = n → e.silent = false →
          e.age < s.start.image.silenceTimeout * 1000) →
        exec (.silenceTimeout n) s = .next s))

/-- The merge permit's conditions (R150, R151): asserted on an induction node in RUN with segment clear not
held, the belt moving, no watched station crowded, room in the track table, and no record in the merge
zone. -/
def Obligations.PermitNeedsAllConditions : Prop :=
  ∀ (s : State) (g : Nat), g = minGap s.start.image s.position.band →
    (permitConditions s = true ↔
      s.start.image.induction = true ∧ s.start.node = .run ∧ s.start.clearHeld = false
        ∧ s.position.stopped = false ∧ (∀ e ∈ s.induction.crowdView, e.crowded = false)
        ∧ s.track.table.length < 48
        ∧ ∀ r ∈ s.track.table,
          (r.lead.elim 0 fun p => dist p s.position.counter)
              < (s.start.image.mergeDistance : Int) - g - s.start.image.mergeWindow
            ∨ (s.start.image.mergeDistance : Int) + g
              < (r.trail.elim 0 fun p => dist p s.position.counter))

/-! ## Supervision -/

/-- The status timer's expiry (R164): it restarts, and a STATUS falls due unless one is due or held. A
STATUS payload (R165) is eighteen bytes: the node state with STOPPED and the permit, the code of the
fault reason, the band, the speed in two bytes, then outside FAULT the numbers of records in the track
table and the expected list, the crowded state, for each outlet a byte of its role and its conditions
FULL, HELD, NOCART and FAULTED (R65), and a byte of its fill count, and the number of exceptions, at
most 255 (in FAULT twelve zeros), and last the sticky flags OVERSPEED, EXCEPTION OVERRUN, COUNT LIMIT,
QUEUE DROP, SILENT WATCH and FORCED MERGE. -/
def Obligations.StatusFallsDueAndCarriesNode : Prop :=
  (∀ (s : State) (n : Nat), s.start.resetHeld = false → s.supervision.statusTimer = some n →
    exec .statusTimerExpiry s = .next (arbitrate { s with
      supervision := { s.supervision with
        statusTimer := some 0
        statusDue := if s.supervision.statusDue = .notDue then .due else s.supervision.statusDue } }))
    ∧ (∀ s : State,
    (statusPayload s).length = 18
      ∧ (statusPayload s).getD 0 0 = byteOf
          ((match s.start.node with
            | .run => if s.start.clearHeld then 2 else 1
            | .fault => 3
            | .start => 0)
          + (if s.position.stopped then 4 else 0) + (if s.induction.permit then 8 else 0))
      ∧ (∀ n reason, [FaultReason.none, .strap, .noImage, .checksum, .format, .range, .geometry,
          .window][n]? = some reason → s.start.faultReason = reason →
          (statusPayload s).getD 1 0 = byteOf n)
      ∧ (∀ n band, [Band.slow, .normal, .fast][n]? = some band → s.position.band = band →
          (statusPayload s).getD 2 0 = byteOf n)
      ∧ ((statusPayload s).drop 3).take 2 = u16 s.position.speed
      ∧ (∀ f : Byte, f = (statusPayload s).getD 17 0 →
          f.getLsbD 0 = s.supervision.flags.overspeed
            ∧ f.getLsbD 1 = s.supervision.flags.exceptionOverrun
            ∧ f.getLsbD 2 = s.supervision.flags.countLimit
            ∧ f.getLsbD 3 = s.supervision.flags.queueDrop
            ∧ (f.getLsbD 4 = true ↔ ∃ e ∈ s.induction.crowdView, e.silent = true)
            ∧ f.getLsbD 5 = s.supervision.flags.forcedMerge
            ∧ f.getLsbD 6 = false ∧ f.getLsbD 7 = false)
      ∧ (s.start.node ≠ .fault →
          (statusPayload s).getD 5 0 = byteOf s.track.table.length
            ∧ (statusPayload s).getD 6 0 = byteOf s.handoff.expected.length
            ∧ (statusPayload s).getD 7 0 = byteOfBool s.supervision.crowded
            ∧ (∀ k : OutletNo, (statusPayload s).getD (12 + k) 0 = byteOf (s.outlets.get k).fill)
            ∧ (statusPayload s).getD 16 0 = byteOf (min 255 s.resolution.exceptions.length))
      ∧ (s.start.node = .run → ∀ (k : OutletNo) (f : Byte) (role : Role),
          f = (statusPayload s).getD (8 + k) 0 → role = (s.start.image.outlets.get k).role →
          (role = .unused → f = 0)
            ∧ (role = .deck → f % 4 = 1) ∧ (role = .stray → f % 4 = 2)
            ∧ (role ≠ .unused →
              (f.getLsbD 2 = true ↔ (s.start.image.outlets.get k).capacity ≤ (s.outlets.get k).fill)
                ∧ f.getLsbD 3 = ((s.outlets.get k).holdSwitch || (s.outlets.get k).lineHold)
                ∧ f.getLsbD 4 = !(s.outlets.get k).cartPresent
                ∧ f.getLsbD 5 = (s.outlets.get k).faulted
                ∧ f.getLsbD 6 = false ∧ f.getLsbD 7 = false))
      ∧ (s.start.node = .fault → ∀ i, 5 ≤ i → i ≤ 16 → (statusPayload s).getD i 0 = 0))

/-- An ASK from the supervisory station (R167, R169, R170): page 0 is answered with a STATUS of the node as
it stands, pages 1 to 4 with the page's number and its eight counters of two bytes each, high byte
first. The counters in the order of their pages: delivered 0 to 3, strays delivered, refusals, missing,
abandoned; spurned offers, no-answers, pending discards, anonymous, untracked, unbound reads,
duplicates, dropped exceptions; parity errors, framing errors, overruns, truncated, check errors,
collisions, line aborts, dropped notices; unexpected entries, foreign frames and six zeros. -/
def Obligations.AsksAreAnswered : Prop :=
  (∀ s : State, ∀ counters : List (List Counter),
    counters = [[.delivered 0, .delivered 1, .delivered 2, .delivered 3, .straysDelivered, .refusals,
        .missing, .abandoned],
      [.spurnedOffers, .noAnswers, .pendingDiscards, .anonymous, .untracked, .unboundReads, .duplicates,
        .droppedExceptions],
      [.parityErrors, .framingErrors, .overruns, .truncated, .checkErrors, .collisions, .lineAborts,
        .droppedNotices],
      [.unexpectedEntries, .foreignFrames]] →
    ∀ page l, counters[page - 1]? = some l → 1 ≤ page →
      (countsPayload s page).length = 17 ∧ (countsPayload s page).getD 0 0 = byteOf page
        ∧ (∀ i c, l[i]? = some c →
          ((countsPayload s page).drop (1 + 2 * i)).take 2
            = [byteOf (s.counter c / 256), byteOf (s.counter c)])
        ∧ ∀ i, l.length ≤ i → i < 8 → ((countsPayload s page).drop (1 + 2 * i)).take 2 = [0, 0])
    ∧ (∀ (s : State) (body : List Byte) (f : InFrame) (page : Nat), s.start.node = .run →
    handedFrame s .ask body = some f → page = payloadByte f.payload 0 → f.dest ≠ 31 →
    f.source = s.start.image.supervisory →
    (page = 0 → exec (.askStatus body) s
        = .next (arbitrate (queueAnswer ⟨f.source, .status, statusPayload s⟩ (frameOver s))))
      ∧ (1 ≤ page → page ≤ 4 → exec (.askCounts body) s
        = .next (arbitrate (queueAnswer ⟨f.source, .counts, countsPayload s page⟩ (frameOver s)))))

/-- HOLD from the supervisory station (R171): the line hold bits are read, set, cleared or inverted where
the mask names an outlet, and the answer carries the bits before and after. Nothing else changes. -/
def Obligations.HoldChangesLineBits : Prop :=
  ∀ (s : State) (c : Instr) (body : List Byte) (f : InFrame) (op : Nat) (mask : Byte)
    (after : OutletNo → Bool),
    s.start.node = .run → handedFrame s .hold body = some f → f.dest ≠ 31 →
    f.source = s.start.image.supervisory → op = payloadByte f.payload 0 →
    mask = f.payload.getD 1 0 → (op = 0 ∨ mask.toNat < 16) →
    (c = .holdRead body ∧ op = 0 ∧ (∀ k, after k = (s.outlets.get k).lineHold)
      ∨ c = .holdSet body ∧ op = 1
        ∧ (∀ k, after k = ((s.outlets.get k).lineHold || mask.getLsbD k))
      ∨ c = .holdClear body ∧ op = 2
        ∧ (∀ k, after k = ((s.outlets.get k).lineHold && !mask.getLsbD k))
      ∨ c = .holdToggle body ∧ op = 3
        ∧ (∀ k, after k = ((s.outlets.get k).lineHold != mask.getLsbD k))) →
    ∃ outlets, exec c s = .next (arbitrate (queueAnswer
        ⟨f.source, .holdAnswer, [maskByte (s.outlets.map (·.lineHold)),
          maskByte (outlets.map (·.lineHold))]⟩
        { frameOver s with outlets := outlets }))
      ∧ ∀ k, outlets.get k = { s.outlets.get k with lineHold := after k }

/-- ZERO from the supervisory station (R172): every counter is 0 and OVERSPEED, COUNT LIMIT and QUEUE DROP
are clear, all before the answer TAKE with a bag ref of zero is handed over; nothing else changes. A
full answer queue drops the answer, and the dropped counter is 1 and QUEUE DROP set. -/
def Obligations.ZeroClearsCounters : Prop :=
  ∀ (s : State) (body : List Byte) (f : InFrame), s.start.node = .run →
    handedFrame s .zero body = some f → f.dest ≠ 31 → f.source = s.start.image.supervisory →
    ∃ u, exec (.zero body) s = .next (arbitrate (queueAnswer ⟨f.source, .take, [0, 0]⟩ u))
      ∧ (∀ c, u.counter c = 0)
      ∧ u = { frameOver s with supervision := { s.supervision with
          counters := u.supervision.counters
          flags := { s.supervision.flags with
            overspeed := false, countLimit := false, queueDrop := false } } }
      ∧ (4 ≤ s.line.answers.length → ∀ t, exec (.zero body) s = .next t →
          t.line.answers = s.line.answers ∧ t.counter .droppedNotices = 1
            ∧ t.supervision.flags.queueDrop = true)

/-- Commands that are refused (R169): one addressed to every station or from another station than the
supervisory one is foreign; an ASK with a page above 4 and a HOLD with an operation above 3, or with one
of the upper four mask bits, are counted as malformed. None is answered. -/
def Obligations.CommandsAreRefused : Prop :=
  ∀ (s : State) (c : Instr) (k : FrameKind) (body : List Byte) (f : InFrame) (first : Nat)
    (second : Byte),
    s.start.node = .run → handedFrame s k body = some f → first = payloadByte f.payload 0 →
    second = f.payload.getD 1 0 →
    (c = .askStatus body ∧ k = .ask ∧ first = 0 ∨ c = .askCounts body ∧ k = .ask ∧ first ≠ 0
      ∨ c = .holdRead body ∧ k = .hold ∧ first = 0 ∨ c = .holdSet body ∧ k = .hold ∧ first = 1
      ∨ c = .holdClear body ∧ k = .hold ∧ first = 2
      ∨ c = .holdToggle body ∧ k = .hold ∧ 3 ≤ first ∨ c = .zero body ∧ k = .zero) →
    (f.dest = 31 ∨ f.source ≠ s.start.image.supervisory →
        exec c s = .next { frameOver s with supervision := raised .foreignFrames s.supervision })
      ∧ (f.dest ≠ 31 → f.source = s.start.image.supervisory →
        (k = .ask ∧ 4 < first ∨ k = .hold ∧ (3 < first ∨ first ≠ 0 ∧ 16 ≤ second.toNat)) →
        exec c s = .next { frameOver s with supervision := raised .checkErrors s.supervision })

/-- What a node in FAULT answers (R183), to frames addressed to it from any station: SPURN with reason 1 to
an OFFER, with its bag ref, and to a CODE; STATUS and COUNTS to an ASK (their payloads are those of
StatusFallsDueAndCarriesNode and AsksAreAnswered), and a count to a page above 4. The same kinds
addressed to every station end their frame alone. -/
def Obligations.FaultedNodeAnswers : Prop :=
  ∀ (s : State) (c : Instr) (k : FrameKind) (body : List Byte) (f : InFrame) (page : Nat),
    s.start.node = .fault → handedFrame s k body = some f → page = payloadByte f.payload 0 →
    s.start.station ≠ 31 →
    (c = .faultOffer body ∧ k = .offer ∨ c = .faultCode body ∧ k = .code
      ∨ c = .faultAsk body ∧ k = .ask) →
    (f.dest = s.start.station →
        (k = .offer → exec c s = .next (arbitrate (queueAnswer
            ⟨f.source, .spurn, [f.payload.getD 0 0, f.payload.getD 1 0, 1]⟩ (frameOver s))))
        ∧ (k = .code → exec c s = .next (arbitrate (queueAnswer
            ⟨f.source, .spurn, [0, 0, 1]⟩ (frameOver s))))
        ∧ (k = .ask → page = 0 → exec c s = .next (arbitrate (queueAnswer
            ⟨f.source, .status, statusPayload s⟩ (frameOver s))))
        ∧ (k = .ask → 1 ≤ page → page ≤ 4 → exec c s = .next (arbitrate (queueAnswer
            ⟨f.source, .counts, countsPayload s page⟩ (frameOver s))))
        ∧ (k = .ask → 4 < page → exec c s
            = .next { frameOver s with supervision := raised .checkErrors s.supervision }))
      ∧ (f.dest = 31 → exec c s = .next (frameOver s))

/-! ## The receiver and the transmitter -/

/-- A head (R109, R113): with its upper three bits clear and this station's number or 31 it begins a frame
in BODY, for another station it is skipped in DISCARD, and with an upper bit set it is malformed; a
frame in progress in BODY is truncated first. The idle count is 0. A sound body character (R110, R115)
sets the idle count to 0; HUNT and DISCARD ignore its byte; in BODY its byte joins the buffer, the byte
that would be the 33rd is an overrun, and the byte at place 4 + n, n being the length byte, ends the
frame: a bad frame is counted, and a good one has the effect of its row of the table (log entry 14 where
the table names none) with that byte as its operand. The row may as well take several bytes at once (the
model's choice, log entry 6): its effect does not depend on how many of them came singly before it. The
five tests (R111), in their order: a frame is good only if its check, its source, its length, its kind
and its length for the kind all hold, and it then gives what its bytes say. -/
def Obligations.HeadsBeginFramesAndTestsEndThem : Prop :=
  (∀ (s : State) (c : LineChar) (base : SupervisionUnit), c.mark = true → charSound c = true →
    s.line.receiver ≠ .off →
    base = (if s.line.receiver = .body then raised .truncated s.supervision else s.supervision) →
    (c.data.toNat < 32 → (c.data.toNat = s.start.station ∨ c.data.toNat = 31) →
        exec (.frameHead c) s = .next { s with
          supervision := base
          line := { s.line with receiver := .body, buffer := [c.data], idleCount := 0 } })
      ∧ (c.data.toNat < 32 → c.data.toNat ≠ s.start.station → c.data.toNat ≠ 31 →
        exec (.frameHead c) s = .next { s with
          supervision := base
          line := { s.line with receiver := .discard, buffer := [], idleCount := 0 } })
      ∧ (32 ≤ c.data.toNat →
        exec (.frameHead c) s = .next { s with
          supervision := raised .checkErrors base, line := huntAgain s.line }))
    ∧ (∀ (s : State) (c : LineChar), c.mark = false → charSound c = true →
    (s.line.receiver = .hunt ∨ s.line.receiver = .discard →
        exec (.frameHead c) s = .next { s with line := { s.line with idleCount := 0 } })
      ∧ (s.line.receiver = .body → s.line.buffer.length < 32 →
        (∀ n, (s.line.buffer ++ [c.data])[3]? = some n → s.line.buffer.length ≠ n.toNat + 4) →
        exec (.frameHead c) s = .next { s with
          line := { s.line with buffer := s.line.buffer ++ [c.data], idleCount := 0 } })
      ∧ (s.line.receiver = .body → 32 ≤ s.line.buffer.length →
        exec (.frameHead c) s
          = .next { frameOver s with supervision := raised .overruns s.supervision })
      ∧ (∀ h n, s.line.receiver = .body → s.line.buffer.head? = some h →
        (s.line.buffer ++ [c.data])[3]? = some n → n.toNat ≤ 27 →
        s.line.buffer.length = n.toNat + 4 → testFrame h (s.line.buffer.tail ++ [c.data]) = none →
        exec (.frameHead c) s
          = .next { frameOver s with supervision := raised .checkErrors s.supervision })
      ∧ (∀ f, s.start.node ≠ .start → goodFrame s [c.data] = some f →
        exec (.frameHead c) s = exec (frameRow s f [c.data]) s)
      ∧ (∀ f t more, s.start.node ≠ .start → more ≠ [] → goodFrame s (c.data :: more) = some f →
        exec (.frameHead c) s = .next t →
        exec (frameRow s f more) t = exec (frameRow s f (c.data :: more)) s))
    ∧ (∀ (h src kind n check : Byte) (payload : List Byte) (f : InFrame), payload.length = n.toNat →
    (testFrame h (src :: kind :: n :: payload ++ [check]) = some f ↔
      byteXor (h :: src :: kind :: n :: payload) = check
        ∧ 1 ≤ src.toNat ∧ src.toNat ≤ 30 ∧ n.toNat ≤ 24
        ∧ kindOfCode kind.toNat = some f.kind ∧ n.toNat ∈ kindLengths f.kind
        ∧ f.dest = h.toNat % 32 ∧ f.source = src.toNat ∧ f.payload = payload))

/-- Damaged characters and frames (R110, R111, R112): a framing error, or else a parity error, an overrun
and a frame that fails a test each raise their one counter, whether its bytes came singly before the
command or with it (log entry 6), and the receiver is in HUNT with its buffer empty. Nothing else
changes. Good frames that no block acts on (R111, R103, R183): the node's own, those of a kind the node
only sends, and in FAULT every frame but an OFFER, CODE or ASK addressed to this station; their frame
ends and nothing is counted. -/
def Obligations.FramesThatEndWithoutAction : Prop :=
  (∀ (s : State) (c : LineChar) (h : Byte) (body : List Byte),
    (s.line.receiver ≠ .off → c.stopOk = false →
        exec (.characterError c) s
          = .next { frameOver s with supervision := raised .framingErrors s.supervision })
      ∧ (s.line.receiver ≠ .off → c.stopOk = true → parityHolds c = false →
        exec (.characterError c) s
          = .next { frameOver s with supervision := raised .parityErrors s.supervision })
      ∧ (headInProgress s = some h → bodyOverruns (bodyWith s body) = true →
        exec (.receiveOverrun body) s
          = .next { frameOver s with supervision := raised .overruns s.supervision })
      ∧ (headInProgress s = some h → bodyEnds (bodyWith s body) = true →
        testFrame h (bodyWith s body) = none →
        exec (.badFrame body) s
          = .next { frameOver s with supervision := raised .checkErrors s.supervision }))
    ∧ (∀ (s : State) (body : List Byte) (f : InFrame), goodFrame s body = some f →
    (f.source = s.start.station
      ∨ f.kind = .missing ∨ f.kind = .stray ∨ f.kind = .holdAnswer ∨ f.kind = .counts
      ∨ (s.start.node = .fault ∧ (f.dest ≠ s.start.station
          ∨ (f.kind ≠ .offer ∧ f.kind ≠ .code ∧ f.kind ≠ .ask)))) →
    exec (.unactedFrame body) s = .next (frameOver s))

/-- The transmitter's line (R115, R116, R117): a held frame's gap is reached when the line has been idle for
6 bit times, for an answer, or 24, for any other: then its event is due, and the event begins to send it
(where the command comes before, the idle bit times still wanting have passed with it: the model's
choice, log entry 4). When a frame has been sent, the transmitter is free, the turn passes from a rotating source to the one after it, a queued frame leaves
its queue, a STATUS is no longer due and an OFFER ON LINE counts an attempt and listens; the arbiter
then serves the next. -/
def Obligations.SentFramesLeaveTheirSource : Prop :=
  ∀ (s : State) (h : HeldFrame),
    (s.line.transmitter = .waitGap h → s.start.resetHeld = false →
        (.gapReached ∈ dueEvents s ↔ (if h.source = .answer then 6 else 24) ≤ s.line.idleCount))
      ∧ (s.line.transmitter = .waitGap h →
        exec .gapReached s
          = .next { s with line := { s.line with transmitter := .sending h, idleCount := 0 } })
      ∧ (s.line.transmitter = .sending h →
        ∃ u, exec .frameSent s = .next (arbitrate u)
          ∧ u.line = { s.line with
              transmitter := .idle, idleCount := 0
              answers := if h.source = .answer then s.line.answers.tail else s.line.answers
              notices := if h.source = .notices then s.line.notices.tail else s.line.notices
              turn := match h.source with
                | .answer => s.line.turn
                | .offer => .notices
                | .notices => .status
                | .status => .offer }
          ∧ u.supervision = { s.supervision with
              statusDue := if h.source = .status then .notDue else s.supervision.statusDue }
          ∧ (∀ o, s.handoff.outbound = some o →
              u.handoff.outbound = some (if h.source = .offer ∧ o.stage = .onLine
                then { o with stage := .listening 0, attempts := o.attempts + 1 } else o))
          ∧ (s.handoff.outbound = none → u.handoff = s.handoff)
          ∧ u.track = s.track ∧ u.resolution = s.resolution ∧ u.outlets = s.outlets
          ∧ u.induction = s.induction ∧ u.position = s.position ∧ u.start = s.start
          ∧ u.handoff.pendingOffers = s.handoff.pendingOffers
          ∧ u.handoff.expected = s.handoff.expected)

/-- A collision (R117, R118): outside FAULT it is counted, and in FAULT it is not (R182); up to the
fifteenth of a frame the frame backs off for 24 bit times times one more than its station and collision
number modulo 8; when its back-off count reaches its length its event is due; the event brings it to
WAIT-GAP again, where it is sent at once on a line that has been idle for its gap (R115), the idle bit
times that its back-off lacked having passed with the command (the model's choice, log entry 4) and
counting as idle. The sixteenth drops the frame as a
line abort, counted outside FAULT: the transmitter is free, the turn passes from a rotating source to
the one after it, an answer or notice leaves its queue, a STATUS ceases to be due, and an OFFER ON LINE
counts an attempt without an answer and rests or is spent (R129, R130); the arbiter then serves the
next. -/
def Obligations.CollisionsBackOff : Prop :=
  ∀ (s : State) (h : HeldFrame) (n len count : Nat) (rises : Counter → SupervisionUnit → SupervisionUnit),
    n = h.collisions + 1 →
    rises = (fun c u => if s.start.node = .fault then u else raised c u) →
    (s.line.transmitter = .sending h → n < 16 →
        exec .collision s = .next { s with
          supervision := rises .collisions s.supervision
          line := { s.line with
            transmitter := .backoff { h with collisions := n }
              (24 * (1 + (s.start.station + n) % 8)) 0
            idleCount := 0 } })
      ∧ (s.line.transmitter = .sending h → 16 ≤ n →
        ∃ u, exec .collision s = .next (arbitrate u)
          ∧ u.line = { s.line with
              transmitter := .idle, idleCount := 0
              answers := if h.source = .answer then s.line.answers.tail else s.line.answers
              notices := if h.source = .notices then s.line.notices.tail else s.line.notices
              turn := match h.source with
                | .answer => s.line.turn
                | .offer => .notices
                | .notices => .status
                | .status => .offer }
          ∧ ((∀ o, h.source = .offer → s.handoff.outbound = some o → o.stage ≠ .onLine) →
              u.supervision = { rises .lineAborts (rises .collisions s.supervision) with
                statusDue := if h.source = .status then .notDue else s.supervision.statusDue }
              ∧ u.handoff = s.handoff)
          ∧ (∀ o, h.source = .offer → s.handoff.outbound = some o → o.stage = .onLine →
              u.supervision
                = raised .noAnswers (rises .lineAborts (rises .collisions s.supervision))
              ∧ u.handoff = { s.handoff with outbound := some { o with
                  attempts := o.attempts + 1
                  stage := if o.attempts + 1 < s.start.image.attemptLimit then .resting 0
                    else .spent } })
          ∧ u.track = s.track ∧ u.resolution = s.resolution ∧ u.outlets = s.outlets
          ∧ u.induction = s.induction ∧ u.position = s.position ∧ u.start = s.start)
      ∧ (s.line.transmitter = .backoff h len count →
        (s.start.resetHeld = false → (.backoffEnd ∈ dueEvents s ↔ len ≤ count))
          ∧ ∃ t, exec .backoffEnd s = .next t
            ∧ GapEntered h (min 255 (s.line.idleCount + (len - count))) t.line
            ∧ t = { s with line := { s.line with
                transmitter := t.line.transmitter, idleCount := t.line.idleCount } })

/-! ## Segment clear -/

/-- The assertion of segment clear in RUN (R184, R80, R148, R158): the three collections, the open records
and the request queue are empty and no offer is outstanding, its frame in WAIT-GAP or BACKOFF being
withdrawn (R119, R134), that of an offer already spent too (log entry 20, DEDUCED). That the turn then
passes is the model's choice (log entry 19). FAULTED is clear on every outlet and a pusher NOT HOME
returns; the node is not crowded, with CROWD off before the MISSING notices of the tagged records, in
the order table, expected list, pending-offer queue, and each that finds no room is counted as dropped
and sets QUEUE DROP. What segment clear keeps stays: every other
counter and flag, the status timer, the crowd view but for the node's own entry, the receiver, the
answers, and a frame being sent. The release of segment clear (R186): the input is no longer held and
the merge permit is decided afresh; nothing else changes. -/
def Obligations.SegmentClearEmptiesAndReleases : Prop :=
  (∀ s : State, s.start.resetHeld = false → s.start.node = .run → s.start.clearHeld = false →
    ∃ t, exec .segmentClearAssert s = .next t
      ∧ t.start = { s.start with clearHeld := true }
      ∧ t.track = { s.track with table := [], openEntry := none, openMerge := none }
      ∧ t.handoff = { outbound := none, pendingOffers := [], expected := [] }
      ∧ t.resolution.requests = [] ∧ t.resolution.exceptions = s.resolution.exceptions
      ∧ (∀ v, t.resolution.service = some v → v.owner = none)
      ∧ (∀ k, (t.outlets.get k).faulted = false ∧ (t.outlets.get k).diverting = []
          ∧ (t.outlets.get k).fill = (s.outlets.get k).fill
          ∧ (t.outlets.get k).lineHold = (s.outlets.get k).lineHold
          ∧ (t.outlets.get k).cartPresent = (s.outlets.get k).cartPresent
          ∧ ((s.outlets.get k).pusher = .notHome →
              (t.outlets.get k).pusher = .retracting ∧ (t.outlets.get k).homeTimer = some 0)
          ∧ ((s.outlets.get k).pusher ≠ .notHome →
              (t.outlets.get k).pusher = (s.outlets.get k).pusher
                ∧ (t.outlets.get k).homeTimer = (s.outlets.get k).homeTimer
                ∧ (t.outlets.get k).dwellTimer = (s.outlets.get k).dwellTimer))
      ∧ t.supervision.crowded = false
      ∧ t.line.notices = (s.line.notices
          ++ (if s.supervision.crowded then [OutFrame.mk 31 .crowd [0, 0]] else [])
          ++ ((s.track.table ++ s.handoff.expected ++ s.handoff.pendingOffers).filter
              (fun r => r.tag.isSome)).map missingNotice).take (max 8 s.line.notices.length)
      ∧ (∃ u, t = arbitrate u ∧ OfferWithdrawn s u ∧ u.line.idleCount = s.line.idleCount)
      ∧ (∀ h, s.line.transmitter = .sending h → t.line.transmitter = .sending h)
      ∧ t.line.receiver = s.line.receiver ∧ t.line.buffer = s.line.buffer
      ∧ t.line.rate = s.line.rate ∧ t.line.msBits = s.line.msBits
      ∧ (∀ made lost, made = (if s.supervision.crowded then 1 else 0)
            + ((s.track.table ++ s.handoff.expected ++ s.handoff.pendingOffers).filter
              (fun r => r.tag.isSome)).length →
          lost = made - (8 - s.line.notices.length) →
          t.supervision = { raisedTimes .droppedNotices lost s.supervision with
            crowded := false, statusDue := t.supervision.statusDue
            flags := { (raisedTimes .droppedNotices lost s.supervision).flags with
              queueDrop := s.supervision.flags.queueDrop || decide (0 < lost) } })
      ∧ t.induction.crowdView = s.induction.crowdView.map (fun e =>
          if s.supervision.crowded = true ∧ e.station = s.start.station
          then { e with crowded := false } else e)
      ∧ t.line.answers = s.line.answers ∧ t.induction.codes = s.induction.codes
      ∧ t.induction.permit = false ∧ t.position = s.position)
    ∧ (∀ s : State, s.start.resetHeld = false →
    ∃ t, exec .segmentClearRelease s = .next t
      ∧ t = { s with
          start := { s.start with clearHeld := false }
          induction := { s.induction with permit := permitConditions t } })
end

