-- ==== Sys2Proof/Laws/State.lean ====
section
/-! SUPPORT. One lemma for each block of State under each update, all true by unfolding, so that no
later proof opens a record update. -/

namespace Sys2Proof.Machine

/-! ## Quads -/

@[simp] theorem Quad_get_set_same {α : Type} (q : Quad α) (k : Fin 4) (a : α) :
    (q.set k a).get k = a := by
  rcases k with ⟨_ | _ | _ | _ | n, h⟩ <;> first | rfl | omega

theorem Quad_get_set_other {α : Type} (q : Quad α) {j k : Fin 4} (a : α) (h : j ≠ k) :
    (q.set k a).get j = q.get j := by
  rcases k with ⟨_ | _ | _ | _ | n, hk⟩ <;> rcases j with ⟨_ | _ | _ | _ | m, hj⟩ <;>
    first | rfl | omega

@[simp] theorem Quad_get_map {α β : Type} (f : α → β) (q : Quad α) (k : Fin 4) :
    (q.map f).get k = f (q.get k) := by
  rcases k with ⟨_ | _ | _ | _ | n, h⟩ <;> first | rfl | omega

@[simp] theorem Quad_get_all {α : Type} (a : α) (k : Fin 4) : (Quad.all a).get k = a := by
  rcases k with ⟨_ | _ | _ | _ | n, h⟩ <;> first | rfl | omega

@[simp] theorem Quad_set_get_self {α : Type} (q : Quad α) (k : Fin 4) : q.set k (q.get k) = q := by
  rcases k with ⟨_ | _ | _ | _ | n, h⟩ <;> first | rfl | omega

theorem Quad_ext_get {α : Type} {p q : Quad α} (h : ∀ k, p.get k = q.get k) : p = q := by
  cases p; cases q
  have h0 := h 0; have h1 := h 1; have h2 := h 2; have h3 := h 3
  simp only [Quad.get] at h0 h1 h2 h3
  subst h0 h1 h2 h3; rfl

/-! ## One block changed -/

section
variable (f : PositionUnit → PositionUnit) (s : State)

@[simp] theorem mapPosition_position : (s.mapPosition f).position = f s.position := rfl
@[simp] theorem mapPosition_track : (s.mapPosition f).track = s.track := rfl
@[simp] theorem mapPosition_resolution : (s.mapPosition f).resolution = s.resolution := rfl
@[simp] theorem mapPosition_outlets : (s.mapPosition f).outlets = s.outlets := rfl
@[simp] theorem mapPosition_line : (s.mapPosition f).line = s.line := rfl
@[simp] theorem mapPosition_handoff : (s.mapPosition f).handoff = s.handoff := rfl
@[simp] theorem mapPosition_induction : (s.mapPosition f).induction = s.induction := rfl
@[simp] theorem mapPosition_supervision : (s.mapPosition f).supervision = s.supervision := rfl
@[simp] theorem mapPosition_start : (s.mapPosition f).start = s.start := rfl
@[simp] theorem mapPosition_pending : (s.mapPosition f).pending = s.pending := rfl

end

section
variable (f : TrackUnit → TrackUnit) (s : State)

@[simp] theorem mapTrack_position : (s.mapTrack f).position = s.position := rfl
@[simp] theorem mapTrack_track : (s.mapTrack f).track = f s.track := rfl
@[simp] theorem mapTrack_resolution : (s.mapTrack f).resolution = s.resolution := rfl
@[simp] theorem mapTrack_outlets : (s.mapTrack f).outlets = s.outlets := rfl
@[simp] theorem mapTrack_line : (s.mapTrack f).line = s.line := rfl
@[simp] theorem mapTrack_handoff : (s.mapTrack f).handoff = s.handoff := rfl
@[simp] theorem mapTrack_induction : (s.mapTrack f).induction = s.induction := rfl
@[simp] theorem mapTrack_supervision : (s.mapTrack f).supervision = s.supervision := rfl
@[simp] theorem mapTrack_start : (s.mapTrack f).start = s.start := rfl
@[simp] theorem mapTrack_pending : (s.mapTrack f).pending = s.pending := rfl

end

section
variable (f : ResolutionUnit → ResolutionUnit) (s : State)

@[simp] theorem mapResolution_position : (s.mapResolution f).position = s.position := rfl
@[simp] theorem mapResolution_track : (s.mapResolution f).track = s.track := rfl
@[simp] theorem mapResolution_resolution : (s.mapResolution f).resolution = f s.resolution := rfl
@[simp] theorem mapResolution_outlets : (s.mapResolution f).outlets = s.outlets := rfl
@[simp] theorem mapResolution_line : (s.mapResolution f).line = s.line := rfl
@[simp] theorem mapResolution_handoff : (s.mapResolution f).handoff = s.handoff := rfl
@[simp] theorem mapResolution_induction : (s.mapResolution f).induction = s.induction := rfl
@[simp] theorem mapResolution_supervision : (s.mapResolution f).supervision = s.supervision := rfl
@[simp] theorem mapResolution_start : (s.mapResolution f).start = s.start := rfl
@[simp] theorem mapResolution_pending : (s.mapResolution f).pending = s.pending := rfl

end

section
variable (f : LineInterface → LineInterface) (s : State)

@[simp] theorem mapLine_position : (s.mapLine f).position = s.position := rfl
@[simp] theorem mapLine_track : (s.mapLine f).track = s.track := rfl
@[simp] theorem mapLine_resolution : (s.mapLine f).resolution = s.resolution := rfl
@[simp] theorem mapLine_outlets : (s.mapLine f).outlets = s.outlets := rfl
@[simp] theorem mapLine_line : (s.mapLine f).line = f s.line := rfl
@[simp] theorem mapLine_handoff : (s.mapLine f).handoff = s.handoff := rfl
@[simp] theorem mapLine_induction : (s.mapLine f).induction = s.induction := rfl
@[simp] theorem mapLine_supervision : (s.mapLine f).supervision = s.supervision := rfl
@[simp] theorem mapLine_start : (s.mapLine f).start = s.start := rfl
@[simp] theorem mapLine_pending : (s.mapLine f).pending = s.pending := rfl

end

section
variable (f : HandoffUnit → HandoffUnit) (s : State)

@[simp] theorem mapHandoff_position : (s.mapHandoff f).position = s.position := rfl
@[simp] theorem mapHandoff_track : (s.mapHandoff f).track = s.track := rfl
@[simp] theorem mapHandoff_resolution : (s.mapHandoff f).resolution = s.resolution := rfl
@[simp] theorem mapHandoff_outlets : (s.mapHandoff f).outlets = s.outlets := rfl
@[simp] theorem mapHandoff_line : (s.mapHandoff f).line = s.line := rfl
@[simp] theorem mapHandoff_handoff : (s.mapHandoff f).handoff = f s.handoff := rfl
@[simp] theorem mapHandoff_induction : (s.mapHandoff f).induction = s.induction := rfl
@[simp] theorem mapHandoff_supervision : (s.mapHandoff f).supervision = s.supervision := rfl
@[simp] theorem mapHandoff_start : (s.mapHandoff f).start = s.start := rfl
@[simp] theorem mapHandoff_pending : (s.mapHandoff f).pending = s.pending := rfl

end

section
variable (f : InductionUnit → InductionUnit) (s : State)

@[simp] theorem mapInduction_position : (s.mapInduction f).position = s.position := rfl
@[simp] theorem mapInduction_track : (s.mapInduction f).track = s.track := rfl
@[simp] theorem mapInduction_resolution : (s.mapInduction f).resolution = s.resolution := rfl
@[simp] theorem mapInduction_outlets : (s.mapInduction f).outlets = s.outlets := rfl
@[simp] theorem mapInduction_line : (s.mapInduction f).line = s.line := rfl
@[simp] theorem mapInduction_handoff : (s.mapInduction f).handoff = s.handoff := rfl
@[simp] theorem mapInduction_induction : (s.mapInduction f).induction = f s.induction := rfl
@[simp] theorem mapInduction_supervision : (s.mapInduction f).supervision = s.supervision := rfl
@[simp] theorem mapInduction_start : (s.mapInduction f).start = s.start := rfl
@[simp] theorem mapInduction_pending : (s.mapInduction f).pending = s.pending := rfl

end

section
variable (f : SupervisionUnit → SupervisionUnit) (s : State)

@[simp] theorem mapSupervision_position : (s.mapSupervision f).position = s.position := rfl
@[simp] theorem mapSupervision_track : (s.mapSupervision f).track = s.track := rfl
@[simp] theorem mapSupervision_resolution : (s.mapSupervision f).resolution = s.resolution := rfl
@[simp] theorem mapSupervision_outlets : (s.mapSupervision f).outlets = s.outlets := rfl
@[simp] theorem mapSupervision_line : (s.mapSupervision f).line = s.line := rfl
@[simp] theorem mapSupervision_handoff : (s.mapSupervision f).handoff = s.handoff := rfl
@[simp] theorem mapSupervision_induction : (s.mapSupervision f).induction = s.induction := rfl
@[simp] theorem mapSupervision_supervision : (s.mapSupervision f).supervision = f s.supervision := rfl
@[simp] theorem mapSupervision_start : (s.mapSupervision f).start = s.start := rfl
@[simp] theorem mapSupervision_pending : (s.mapSupervision f).pending = s.pending := rfl

end

section
variable (f : StartUnit → StartUnit) (s : State)

@[simp] theorem mapStart_position : (s.mapStart f).position = s.position := rfl
@[simp] theorem mapStart_track : (s.mapStart f).track = s.track := rfl
@[simp] theorem mapStart_resolution : (s.mapStart f).resolution = s.resolution := rfl
@[simp] theorem mapStart_outlets : (s.mapStart f).outlets = s.outlets := rfl
@[simp] theorem mapStart_line : (s.mapStart f).line = s.line := rfl
@[simp] theorem mapStart_handoff : (s.mapStart f).handoff = s.handoff := rfl
@[simp] theorem mapStart_induction : (s.mapStart f).induction = s.induction := rfl
@[simp] theorem mapStart_supervision : (s.mapStart f).supervision = s.supervision := rfl
@[simp] theorem mapStart_start : (s.mapStart f).start = f s.start := rfl
@[simp] theorem mapStart_pending : (s.mapStart f).pending = s.pending := rfl

end

section
variable (k : OutletNo) (f : Outlet → Outlet) (s : State)

@[simp] theorem mapOutlet_position : (s.mapOutlet k f).position = s.position := rfl
@[simp] theorem mapOutlets_position : (s.mapOutlets f).position = s.position := rfl
@[simp] theorem mapOutlet_track : (s.mapOutlet k f).track = s.track := rfl
@[simp] theorem mapOutlets_track : (s.mapOutlets f).track = s.track := rfl
@[simp] theorem mapOutlet_resolution : (s.mapOutlet k f).resolution = s.resolution := rfl
@[simp] theorem mapOutlets_resolution : (s.mapOutlets f).resolution = s.resolution := rfl
@[simp] theorem mapOutlet_outlets :
    (s.mapOutlet k f).outlets = s.outlets.set k (f (s.outlets.get k)) := rfl
@[simp] theorem mapOutlets_outlets : (s.mapOutlets f).outlets = s.outlets.map f := rfl
@[simp] theorem mapOutlet_line : (s.mapOutlet k f).line = s.line := rfl
@[simp] theorem mapOutlets_line : (s.mapOutlets f).line = s.line := rfl
@[simp] theorem mapOutlet_handoff : (s.mapOutlet k f).handoff = s.handoff := rfl
@[simp] theorem mapOutlets_handoff : (s.mapOutlets f).handoff = s.handoff := rfl
@[simp] theorem mapOutlet_induction : (s.mapOutlet k f).induction = s.induction := rfl
@[simp] theorem mapOutlets_induction : (s.mapOutlets f).induction = s.induction := rfl
@[simp] theorem mapOutlet_supervision : (s.mapOutlet k f).supervision = s.supervision := rfl
@[simp] theorem mapOutlets_supervision : (s.mapOutlets f).supervision = s.supervision := rfl
@[simp] theorem mapOutlet_start : (s.mapOutlet k f).start = s.start := rfl
@[simp] theorem mapOutlets_start : (s.mapOutlets f).start = s.start := rfl
@[simp] theorem mapOutlet_pending : (s.mapOutlet k f).pending = s.pending := rfl
@[simp] theorem mapOutlets_pending : (s.mapOutlets f).pending = s.pending := rfl

end

/-! ## The record of a bag ref changed -/

section
variable (ref : BagRef) (f : Record → Record) (s : State)

@[simp] theorem updateRecord_position : (updateRecord ref f s).position = s.position := rfl
@[simp] theorem updateRecord_resolution : (updateRecord ref f s).resolution = s.resolution := rfl
@[simp] theorem updateRecord_outlets : (updateRecord ref f s).outlets = s.outlets := rfl
@[simp] theorem updateRecord_line : (updateRecord ref f s).line = s.line := rfl
@[simp] theorem updateRecord_induction : (updateRecord ref f s).induction = s.induction := rfl
@[simp] theorem updateRecord_supervision : (updateRecord ref f s).supervision = s.supervision := rfl
@[simp] theorem updateRecord_start : (updateRecord ref f s).start = s.start := rfl
@[simp] theorem updateRecord_pending : (updateRecord ref f s).pending = s.pending := rfl
@[simp] theorem updateRecord_table :
    (updateRecord ref f s).track.table = updateIn s.track.table ref f := rfl
@[simp] theorem updateRecord_bagSeq : (updateRecord ref f s).track.bagSeq = s.track.bagSeq := rfl
@[simp] theorem updateRecord_openEntry :
    (updateRecord ref f s).track.openEntry = s.track.openEntry := rfl
@[simp] theorem updateRecord_openMerge :
    (updateRecord ref f s).track.openMerge = s.track.openMerge := rfl
@[simp] theorem updateRecord_readerBytes :
    (updateRecord ref f s).track.readerBytes = s.track.readerBytes := rfl
@[simp] theorem updateRecord_readerGap :
    (updateRecord ref f s).track.readerGap = s.track.readerGap := rfl
@[simp] theorem updateRecord_outbound :
    (updateRecord ref f s).handoff.outbound = s.handoff.outbound := rfl
@[simp] theorem updateRecord_pendingOffers :
    (updateRecord ref f s).handoff.pendingOffers = updateIn s.handoff.pendingOffers ref f := rfl
@[simp] theorem updateRecord_expected :
    (updateRecord ref f s).handoff.expected = updateIn s.handoff.expected ref f := rfl

end

/-! ## Views of the state -/

@[simp] theorem image_def (s : State) : s.image = s.start.image := rfl

end Sys2Proof.Machine
end

