-- ==== Sys2Proof/Laws/Blocks.lean ====
section
/-! SUPPORT. What each shared operation leaves untouched: for every operation, one lemma, a rule of `simp` for each block
of State that it does not change. -/

namespace Sys2Proof.Machine

variable (s : State)

@[simp] theorem setCountLimit_rest :
    (setCountLimit s).position = s.position ∧ (setCountLimit s).track = s.track ∧
      (setCountLimit s).resolution = s.resolution ∧ (setCountLimit s).outlets = s.outlets ∧
      (setCountLimit s).line = s.line ∧ (setCountLimit s).handoff = s.handoff ∧
      (setCountLimit s).induction = s.induction ∧ (setCountLimit s).start = s.start ∧
      (setCountLimit s).pending = s.pending := by
  simp [setCountLimit, State.mapFlags]

@[simp] theorem setQueueDrop_rest :
    (setQueueDrop s).position = s.position ∧ (setQueueDrop s).track = s.track ∧
      (setQueueDrop s).resolution = s.resolution ∧ (setQueueDrop s).outlets = s.outlets ∧
      (setQueueDrop s).line = s.line ∧ (setQueueDrop s).handoff = s.handoff ∧
      (setQueueDrop s).induction = s.induction ∧ (setQueueDrop s).start = s.start ∧
      (setQueueDrop s).pending = s.pending := by
  simp [setQueueDrop, State.mapFlags]

@[simp] theorem setOverspeed_rest :
    (setOverspeed s).position = s.position ∧ (setOverspeed s).track = s.track ∧
      (setOverspeed s).resolution = s.resolution ∧ (setOverspeed s).outlets = s.outlets ∧
      (setOverspeed s).line = s.line ∧ (setOverspeed s).handoff = s.handoff ∧
      (setOverspeed s).induction = s.induction ∧ (setOverspeed s).start = s.start ∧
      (setOverspeed s).pending = s.pending := by
  simp [setOverspeed, State.mapFlags]

@[simp] theorem setExceptionOverrun_rest :
    (setExceptionOverrun s).position = s.position ∧ (setExceptionOverrun s).track = s.track ∧
      (setExceptionOverrun s).resolution = s.resolution ∧
      (setExceptionOverrun s).outlets = s.outlets ∧ (setExceptionOverrun s).line = s.line ∧
      (setExceptionOverrun s).handoff = s.handoff ∧
      (setExceptionOverrun s).induction = s.induction ∧ (setExceptionOverrun s).start = s.start ∧
      (setExceptionOverrun s).pending = s.pending := by
  simp [setExceptionOverrun, State.mapFlags]

@[simp] theorem setForcedMerge_rest :
    (setForcedMerge s).position = s.position ∧ (setForcedMerge s).track = s.track ∧
      (setForcedMerge s).resolution = s.resolution ∧ (setForcedMerge s).outlets = s.outlets ∧
      (setForcedMerge s).line = s.line ∧ (setForcedMerge s).handoff = s.handoff ∧
      (setForcedMerge s).induction = s.induction ∧ (setForcedMerge s).start = s.start ∧
      (setForcedMerge s).pending = s.pending := by
  simp [setForcedMerge, State.mapFlags]

@[simp] theorem zeroCounters_rest :
    (zeroCounters s).position = s.position ∧ (zeroCounters s).track = s.track ∧
      (zeroCounters s).resolution = s.resolution ∧ (zeroCounters s).outlets = s.outlets ∧
      (zeroCounters s).line = s.line ∧ (zeroCounters s).handoff = s.handoff ∧
      (zeroCounters s).induction = s.induction ∧ (zeroCounters s).start = s.start ∧
      (zeroCounters s).pending = s.pending := by
  simp [zeroCounters]

@[simp] theorem bump_rest (c : Counter) :
    (bump c s).position = s.position ∧ (bump c s).track = s.track ∧
      (bump c s).resolution = s.resolution ∧ (bump c s).outlets = s.outlets ∧
      (bump c s).line = s.line ∧ (bump c s).handoff = s.handoff ∧
      (bump c s).induction = s.induction ∧ (bump c s).start = s.start ∧
      (bump c s).pending = s.pending := by
  unfold bump; and_intros <;> dsimp only <;> (repeat' split) <;> simp

@[simp] theorem bumpOutsideFault_rest (c : Counter) :
    (bumpOutsideFault c s).position = s.position ∧ (bumpOutsideFault c s).track = s.track ∧
      (bumpOutsideFault c s).resolution = s.resolution ∧
      (bumpOutsideFault c s).outlets = s.outlets ∧ (bumpOutsideFault c s).line = s.line ∧
      (bumpOutsideFault c s).handoff = s.handoff ∧
      (bumpOutsideFault c s).induction = s.induction ∧ (bumpOutsideFault c s).start = s.start ∧
      (bumpOutsideFault c s).pending = s.pending := by
  unfold bumpOutsideFault; and_intros <;> (repeat' split) <;> simp

@[simp] theorem queueAnswer_rest (f : OutFrame) :
    (queueAnswer f s).position = s.position ∧ (queueAnswer f s).track = s.track ∧
      (queueAnswer f s).resolution = s.resolution ∧ (queueAnswer f s).outlets = s.outlets ∧
      (queueAnswer f s).handoff = s.handoff ∧ (queueAnswer f s).induction = s.induction ∧
      (queueAnswer f s).start = s.start ∧ (queueAnswer f s).pending = s.pending := by
  unfold queueAnswer; and_intros <;> (repeat' split) <;> simp

@[simp] theorem queueNotice_rest (f : OutFrame) :
    (queueNotice f s).position = s.position ∧ (queueNotice f s).track = s.track ∧
      (queueNotice f s).resolution = s.resolution ∧ (queueNotice f s).outlets = s.outlets ∧
      (queueNotice f s).handoff = s.handoff ∧ (queueNotice f s).induction = s.induction ∧
      (queueNotice f s).start = s.start ∧ (queueNotice f s).pending = s.pending := by
  unfold queueNotice; and_intros <;> (repeat' split) <;> simp

@[simp] theorem setStage_rest (g : OfferStage) :
    (setStage g s).position = s.position ∧ (setStage g s).track = s.track ∧
      (setStage g s).resolution = s.resolution ∧ (setStage g s).outlets = s.outlets ∧
      (setStage g s).line = s.line ∧ (setStage g s).induction = s.induction ∧
      (setStage g s).supervision = s.supervision ∧ (setStage g s).start = s.start ∧
      (setStage g s).pending = s.pending := by
  simp [setStage]

@[simp] theorem setStatusDue_rest (d : DueStatus) :
    (setStatusDue d s).position = s.position ∧ (setStatusDue d s).track = s.track ∧
      (setStatusDue d s).resolution = s.resolution ∧ (setStatusDue d s).outlets = s.outlets ∧
      (setStatusDue d s).line = s.line ∧ (setStatusDue d s).handoff = s.handoff ∧
      (setStatusDue d s).induction = s.induction ∧ (setStatusDue d s).start = s.start ∧
      (setStatusDue d s).pending = s.pending := by
  simp [setStatusDue]

@[simp] theorem setTransmitter_rest (t : Transmitter) :
    (setTransmitter t s).position = s.position ∧ (setTransmitter t s).track = s.track ∧
      (setTransmitter t s).resolution = s.resolution ∧ (setTransmitter t s).outlets = s.outlets ∧
      (setTransmitter t s).handoff = s.handoff ∧ (setTransmitter t s).induction = s.induction ∧
      (setTransmitter t s).supervision = s.supervision ∧ (setTransmitter t s).start = s.start ∧
      (setTransmitter t s).pending = s.pending := by
  simp [setTransmitter]

@[simp] theorem markTaken_rest (src : FrameSource) :
    (markTaken src s).position = s.position ∧ (markTaken src s).track = s.track ∧
      (markTaken src s).resolution = s.resolution ∧ (markTaken src s).outlets = s.outlets ∧
      (markTaken src s).line = s.line ∧ (markTaken src s).induction = s.induction ∧
      (markTaken src s).start = s.start ∧ (markTaken src s).pending = s.pending := by
  unfold markTaken; and_intros <;> (repeat' split) <;> simp

@[simp] theorem markReturned_rest (src : FrameSource) :
    (markReturned src s).position = s.position ∧ (markReturned src s).track = s.track ∧
      (markReturned src s).resolution = s.resolution ∧ (markReturned src s).outlets = s.outlets ∧
      (markReturned src s).line = s.line ∧ (markReturned src s).induction = s.induction ∧
      (markReturned src s).start = s.start ∧ (markReturned src s).pending = s.pending := by
  unfold markReturned; and_intros <;> (repeat' split) <;> simp

@[simp] theorem enterWaitGap_rest (h : HeldFrame) :
    (enterWaitGap h s).position = s.position ∧ (enterWaitGap h s).track = s.track ∧
      (enterWaitGap h s).resolution = s.resolution ∧ (enterWaitGap h s).outlets = s.outlets ∧
      (enterWaitGap h s).handoff = s.handoff ∧ (enterWaitGap h s).induction = s.induction ∧
      (enterWaitGap h s).supervision = s.supervision ∧ (enterWaitGap h s).start = s.start ∧
      (enterWaitGap h s).pending = s.pending := by
  simp [enterWaitGap]

@[simp] theorem holdFrame_rest (src : FrameSource) (f : OutFrame) :
    (holdFrame src f s).position = s.position ∧ (holdFrame src f s).track = s.track ∧
      (holdFrame src f s).resolution = s.resolution ∧ (holdFrame src f s).outlets = s.outlets ∧
      (holdFrame src f s).induction = s.induction ∧ (holdFrame src f s).start = s.start ∧
      (holdFrame src f s).pending = s.pending := by
  simp [holdFrame]

@[simp] theorem handOver_rest :
    (handOver s).position = s.position ∧ (handOver s).track = s.track ∧
      (handOver s).resolution = s.resolution ∧ (handOver s).outlets = s.outlets ∧
      (handOver s).induction = s.induction ∧ (handOver s).start = s.start ∧
      (handOver s).pending = s.pending := by
  unfold handOver; and_intros <;> (repeat' split) <;> simp

@[simp] theorem takeBack_rest :
    (takeBack s).position = s.position ∧ (takeBack s).track = s.track ∧
      (takeBack s).resolution = s.resolution ∧ (takeBack s).outlets = s.outlets ∧
      (takeBack s).induction = s.induction ∧ (takeBack s).start = s.start ∧
      (takeBack s).pending = s.pending := by
  unfold takeBack; and_intros <;> (repeat' split) <;> simp

@[simp] theorem arbitrate_rest :
    (arbitrate s).position = s.position ∧ (arbitrate s).track = s.track ∧
      (arbitrate s).resolution = s.resolution ∧ (arbitrate s).outlets = s.outlets ∧
      (arbitrate s).induction = s.induction ∧ (arbitrate s).start = s.start ∧
      (arbitrate s).pending = s.pending := by
  unfold arbitrate; and_intros <;> dsimp only <;> (repeat' split) <;> simp

@[simp] theorem withdrawOffer_rest :
    (withdrawOffer s).position = s.position ∧ (withdrawOffer s).track = s.track ∧
      (withdrawOffer s).resolution = s.resolution ∧ (withdrawOffer s).outlets = s.outlets ∧
      (withdrawOffer s).handoff = s.handoff ∧ (withdrawOffer s).induction = s.induction ∧
      (withdrawOffer s).supervision = s.supervision ∧ (withdrawOffer s).start = s.start ∧
      (withdrawOffer s).pending = s.pending := by
  unfold withdrawOffer; and_intros <;> (repeat' split) <;> simp

@[simp] theorem takeUpOffer_rest :
    (takeUpOffer s).position = s.position ∧ (takeUpOffer s).resolution = s.resolution ∧
      (takeUpOffer s).outlets = s.outlets ∧ (takeUpOffer s).line = s.line ∧
      (takeUpOffer s).induction = s.induction ∧ (takeUpOffer s).supervision = s.supervision ∧
      (takeUpOffer s).start = s.start ∧ (takeUpOffer s).pending = s.pending := by
  unfold takeUpOffer; and_intros <;> (repeat' split) <;> simp

@[simp] theorem endOfferFrame_rest :
    (endOfferFrame s).position = s.position ∧ (endOfferFrame s).track = s.track ∧
      (endOfferFrame s).resolution = s.resolution ∧ (endOfferFrame s).outlets = s.outlets ∧
      (endOfferFrame s).handoff = s.handoff ∧ (endOfferFrame s).induction = s.induction ∧
      (endOfferFrame s).supervision = s.supervision ∧ (endOfferFrame s).start = s.start ∧
      (endOfferFrame s).pending = s.pending := by
  unfold endOfferFrame; and_intros <;> (repeat' split) <;> simp

@[simp] theorem endOfferOf_rest (ref : BagRef) :
    (endOfferOf ref s).position = s.position ∧ (endOfferOf ref s).track = s.track ∧
      (endOfferOf ref s).resolution = s.resolution ∧ (endOfferOf ref s).outlets = s.outlets ∧
      (endOfferOf ref s).induction = s.induction ∧
      (endOfferOf ref s).supervision = s.supervision ∧ (endOfferOf ref s).start = s.start ∧
      (endOfferOf ref s).pending = s.pending := by
  unfold endOfferOf; and_intros <;> (repeat' split) <;> simp

@[simp] theorem afterAttempt_rest :
    (afterAttempt s).position = s.position ∧ (afterAttempt s).track = s.track ∧
      (afterAttempt s).resolution = s.resolution ∧ (afterAttempt s).outlets = s.outlets ∧
      (afterAttempt s).line = s.line ∧ (afterAttempt s).induction = s.induction ∧
      (afterAttempt s).supervision = s.supervision ∧ (afterAttempt s).start = s.start ∧
      (afterAttempt s).pending = s.pending := by
  unfold afterAttempt; and_intros <;> (repeat' split) <;> simp

@[simp] theorem countAttempt_rest :
    (countAttempt s).position = s.position ∧ (countAttempt s).track = s.track ∧
      (countAttempt s).resolution = s.resolution ∧ (countAttempt s).outlets = s.outlets ∧
      (countAttempt s).line = s.line ∧ (countAttempt s).induction = s.induction ∧
      (countAttempt s).supervision = s.supervision ∧ (countAttempt s).start = s.start ∧
      (countAttempt s).pending = s.pending := by
  simp [countAttempt]

@[simp] theorem setCrowded_rest (on : Bool) :
    (setCrowded on s).position = s.position ∧ (setCrowded on s).track = s.track ∧
      (setCrowded on s).resolution = s.resolution ∧ (setCrowded on s).outlets = s.outlets ∧
      (setCrowded on s).handoff = s.handoff ∧ (setCrowded on s).start = s.start ∧
      (setCrowded on s).pending = s.pending := by
  simp [setCrowded]

@[simp] theorem occupancyRose_rest :
    (occupancyRose s).position = s.position ∧ (occupancyRose s).track = s.track ∧
      (occupancyRose s).resolution = s.resolution ∧ (occupancyRose s).outlets = s.outlets ∧
      (occupancyRose s).handoff = s.handoff ∧ (occupancyRose s).start = s.start ∧
      (occupancyRose s).pending = s.pending := by
  unfold occupancyRose; and_intros <;> (repeat' split) <;> simp

@[simp] theorem occupancyFell_rest :
    (occupancyFell s).position = s.position ∧ (occupancyFell s).track = s.track ∧
      (occupancyFell s).resolution = s.resolution ∧ (occupancyFell s).outlets = s.outlets ∧
      (occupancyFell s).handoff = s.handoff ∧ (occupancyFell s).start = s.start ∧
      (occupancyFell s).pending = s.pending := by
  unfold occupancyFell; and_intros <;> (repeat' split) <;> simp

@[simp] theorem decidePermit_rest :
    (decidePermit s).position = s.position ∧ (decidePermit s).track = s.track ∧
      (decidePermit s).resolution = s.resolution ∧ (decidePermit s).outlets = s.outlets ∧
      (decidePermit s).line = s.line ∧ (decidePermit s).handoff = s.handoff ∧
      (decidePermit s).supervision = s.supervision ∧ (decidePermit s).start = s.start ∧
      (decidePermit s).pending = s.pending := by
  simp [decidePermit]

@[simp] theorem startResolution_rest :
    (startResolution s).position = s.position ∧ (startResolution s).track = s.track ∧
      (startResolution s).outlets = s.outlets ∧ (startResolution s).line = s.line ∧
      (startResolution s).handoff = s.handoff ∧ (startResolution s).induction = s.induction ∧
      (startResolution s).supervision = s.supervision ∧ (startResolution s).start = s.start ∧
      (startResolution s).pending = s.pending := by
  unfold startResolution; and_intros <;> (repeat' split) <;> simp

@[simp] theorem raiseRequest_rest (ref : BagRef) :
    (raiseRequest ref s).position = s.position ∧ (raiseRequest ref s).outlets = s.outlets ∧
      (raiseRequest ref s).line = s.line ∧ (raiseRequest ref s).induction = s.induction ∧
      (raiseRequest ref s).supervision = s.supervision ∧ (raiseRequest ref s).start = s.start ∧
      (raiseRequest ref s).pending = s.pending := by
  unfold raiseRequest; and_intros <;> (repeat' split) <;> simp

@[simp] theorem markStray_rest (cause : StrayCause) (ref : BagRef) :
    (markStray cause ref s).position = s.position ∧ (markStray cause ref s).outlets = s.outlets ∧
      (markStray cause ref s).line = s.line ∧ (markStray cause ref s).induction = s.induction ∧
      (markStray cause ref s).supervision = s.supervision ∧
      (markStray cause ref s).start = s.start ∧ (markStray cause ref s).pending = s.pending := by
  unfold markStray; and_intros <;> (repeat' split) <;> simp

@[simp] theorem lapCheck_rest (ref : BagRef) :
    (lapCheck ref s).position = s.position ∧ (lapCheck ref s).outlets = s.outlets ∧
      (lapCheck ref s).line = s.line ∧ (lapCheck ref s).induction = s.induction ∧
      (lapCheck ref s).supervision = s.supervision ∧ (lapCheck ref s).start = s.start ∧
      (lapCheck ref s).pending = s.pending := by
  unfold lapCheck; and_intros <;> (repeat' split) <;> simp

@[simp] theorem leave_rest (ref : BagRef) :
    (leave ref s).position = s.position ∧ (leave ref s).induction = s.induction ∧
      (leave ref s).supervision = s.supervision ∧ (leave ref s).start = s.start ∧
      (leave ref s).pending = s.pending := by
  simp [leave]

@[simp] theorem leaveTable_rest (ref : BagRef) :
    (leaveTable ref s).position = s.position ∧ (leaveTable ref s).start = s.start ∧
      (leaveTable ref s).pending = s.pending := by
  simp [leaveTable]

@[simp] theorem takeMissing_rest (r : Record) :
    (takeMissing r s).position = s.position ∧ (takeMissing r s).induction = s.induction ∧
      (takeMissing r s).start = s.start ∧ (takeMissing r s).pending = s.pending := by
  simp [takeMissing]

@[simp] theorem takeExit_rest (ref : BagRef) :
    (takeExit ref s).position = s.position ∧ (takeExit ref s).start = s.start ∧
      (takeExit ref s).pending = s.pending := by
  simp [takeExit]

@[simp] theorem settleExit_rest (ref : BagRef) :
    (settleExit ref s).position = s.position ∧ (settleExit ref s).start = s.start ∧
      (settleExit ref s).pending = s.pending := by
  unfold settleExit; and_intros <;> (repeat' split) <;> simp

@[simp] theorem becomeExiting_rest (ref : BagRef) :
    (becomeExiting ref s).position = s.position ∧ (becomeExiting ref s).start = s.start ∧
      (becomeExiting ref s).pending = s.pending := by
  simp [becomeExiting]

@[simp] theorem takeOfferPoint_rest (r : Record) :
    (takeOfferPoint r s).position = s.position ∧ (takeOfferPoint r s).start = s.start ∧
      (takeOfferPoint r s).pending = s.pending := by
  unfold takeOfferPoint; and_intros <;> (repeat' split) <;> simp

@[simp] theorem settleOfferPoint_rest (ref : BagRef) :
    (settleOfferPoint ref s).position = s.position ∧ (settleOfferPoint ref s).start = s.start ∧
      (settleOfferPoint ref s).pending = s.pending := by
  unfold settleOfferPoint; and_intros <;> (repeat' split) <;> simp

@[simp] theorem refuse_rest (cause : RefusalCause) (ref : BagRef) :
    (refuse cause ref s).position = s.position ∧ (refuse cause ref s).resolution = s.resolution ∧
      (refuse cause ref s).outlets = s.outlets ∧ (refuse cause ref s).line = s.line ∧
      (refuse cause ref s).induction = s.induction ∧ (refuse cause ref s).start = s.start ∧
      (refuse cause ref s).pending = s.pending := by
  simp [refuse]

@[simp] theorem takeFire_rest (k : OutletNo) (ref : BagRef) :
    (takeFire k ref s).position = s.position ∧ (takeFire k ref s).resolution = s.resolution ∧
      (takeFire k ref s).line = s.line ∧ (takeFire k ref s).induction = s.induction ∧
      (takeFire k ref s).start = s.start ∧ (takeFire k ref s).pending = s.pending := by
  unfold takeFire; and_intros <;> (repeat' split) <;> simp

@[simp] theorem takeArming_rest (k : OutletNo) (r : Record) :
    (takeArming k r s).position = s.position ∧ (takeArming k r s).line = s.line ∧
      (takeArming k r s).induction = s.induction ∧ (takeArming k r s).start = s.start ∧
      (takeArming k r s).pending = s.pending := by
  unfold takeArming; and_intros <;> (repeat' split) <;> simp

@[simp] theorem settleArming_rest (ref : BagRef) :
    (settleArming ref s).position = s.position ∧ (settleArming ref s).line = s.line ∧
      (settleArming ref s).induction = s.induction ∧ (settleArming ref s).start = s.start ∧
      (settleArming ref s).pending = s.pending := by
  unfold settleArming; and_intros <;> (repeat' split) <;> simp

@[simp] theorem openWindow_rest (ref : BagRef) :
    (openWindow ref s).position = s.position ∧ (openWindow ref s).resolution = s.resolution ∧
      (openWindow ref s).outlets = s.outlets ∧ (openWindow ref s).line = s.line ∧
      (openWindow ref s).induction = s.induction ∧
      (openWindow ref s).supervision = s.supervision ∧ (openWindow ref s).start = s.start ∧
      (openWindow ref s).pending = s.pending := by
  simp [openWindow]

@[simp] theorem noreadOn_rest (r : Record) :
    (noreadOn r s).position = s.position ∧ (noreadOn r s).outlets = s.outlets ∧
      (noreadOn r s).line = s.line ∧ (noreadOn r s).induction = s.induction ∧
      (noreadOn r s).supervision = s.supervision ∧ (noreadOn r s).start = s.start ∧
      (noreadOn r s).pending = s.pending := by
  unfold noreadOn; and_intros <;> (repeat' split) <;> simp

@[simp] theorem closeWindow_rest (r : Record) :
    (closeWindow r s).position = s.position ∧ (closeWindow r s).outlets = s.outlets ∧
      (closeWindow r s).line = s.line ∧ (closeWindow r s).induction = s.induction ∧
      (closeWindow r s).supervision = s.supervision ∧ (closeWindow r s).start = s.start ∧
      (closeWindow r s).pending = s.pending := by
  simp [closeWindow]

@[simp] theorem settleWindow_rest (ref : BagRef) :
    (settleWindow ref s).position = s.position ∧ (settleWindow ref s).outlets = s.outlets ∧
      (settleWindow ref s).line = s.line ∧ (settleWindow ref s).induction = s.induction ∧
      (settleWindow ref s).supervision = s.supervision ∧ (settleWindow ref s).start = s.start ∧
      (settleWindow ref s).pending = s.pending := by
  unfold settleWindow; and_intros <;> (repeat' split) <;> simp

end Sys2Proof.Machine
end

