-- ==== Sys2Proof/Laws/Idle.lean ====
section
/-! SUPPORT. What `dueEvents` holds, said once: exactly the events of `EventDue`. -/

namespace Sys2Proof.Machine

theorem timerUp_iff (t : Option Nat) (limit : Nat) : timerUp t limit = true ↔ TimeUp t limit := by
  cases t <;> simp [timerUp, TimeUp]

theorem mem_dueIf (b : Bool) (c d : Instr) : d ∈ dueIf b c ↔ b = true ∧ d = c := by
  cases b <;> simp [dueIf]

theorem mem_dueOfRecord (s : State) (r : Record) (hr : r ∈ s.track.table) (hn : s.start.node = .run)
    (c : Instr) (h : c ∈ dueOfRecord s r) : EventDue s c := by
  simp only [dueOfRecord, List.mem_append, mem_dueIf] at h
  rcases h with (((((⟨h, rfl⟩ | ⟨h, rfl⟩) | ⟨h, rfl⟩) | ⟨h, rfl⟩) | ⟨h, rfl⟩) | ⟨h, rfl⟩) | ⟨h, rfl⟩
  · unfold windowOpenReached at h
    split at h
    · simp only [Bool.and_eq_true, decide_eq_true_eq] at h
      exact .readWindowOpen r _ hn h.2.1 hr h.1 ‹_› h.2.2
    · simp at h
  · unfold windowCloseReached at h
    split at h
    · simp only [Bool.and_eq_true, decide_eq_true_eq] at h
      exact .readWindowClose r _ hn h.2.1 hr h.1 ‹_› h.2.2
    · simp at h
  · unfold armingReached at h
    split at h
    · split at h
      · rename_i k p e₁ e₂ g
        exact .arming r p k hn hr g.1 g.2.1 e₁ g.2.2.1 e₂ g.2.2.2
      · simp at h
    · simp at h
  · unfold fireReached at h
    split at h
    · split at h
      · obtain ⟨k, e⟩ := Option.isSome_iff_exists.mp h
        rename_i g
        exact .fire r _ k hn hr g.1 e ‹_› g.2
      · simp at h
    · simp at h
  · split at h
    · simp only [Bool.and_eq_true, decide_eq_true_eq, timerUp_iff] at h
      exact .confirmTimeout r _ hn hr h.1 ‹_› h.2
    · simp at h
  · unfold offerPointReached at h
    split at h
    · simp only [Bool.and_eq_true, decide_eq_true_eq, Bool.not_eq_true'] at h
      exact .offerPoint r _ hn hr h.1.2 h.1.1 ‹_› h.2
    · simp at h
  · unfold exitReached at h
    split at h
    · simp only [Bool.and_eq_true, decide_eq_true_eq] at h
      exact .segmentExit r _ hn hr h.1 ‹_› h.2
    · simp at h

theorem mem_dueOfOutlet (s : State) (k : OutletNo) (c : Instr) (h : c ∈ dueOfOutlet s k) :
    EventDue s c := by
  simp only [dueOfOutlet, outletActive, inRun, List.mem_append, mem_dueIf, Bool.and_eq_true,
    decide_eq_true_eq, timerUp_iff] at h
  rcases h with ⟨⟨⟨⟨a, b⟩, d⟩, e⟩, rfl⟩ | ⟨⟨⟨⟨a, b⟩, d⟩, e⟩, rfl⟩
  · exact .dwellExpiry k a b d e
  · exact .homeTimeout k a b d e

theorem mem_dueOfHandoff (s : State) (hn : s.start.node = .run) (c : Instr)
    (h : c ∈ dueOfHandoff s) : EventDue s c := by
  simp only [dueOfHandoff, List.mem_append, mem_dueIf, List.mem_flatMap] at h
  rcases h with (⟨h, rfl⟩ | ⟨r, hr, h, rfl⟩) | h
  · unfold deadlineReached at h
    split at h
    · split at h
      · split at h
        · exact .expectedDeadline _ _ _ hn ‹_› ‹_› ‹_›
        · simp at h
      · simp at h
    · simp at h
  · simp only [Bool.and_eq_true, timerUp_iff] at h
    exact .discardTimeout r hn hr h.1 h.2
  · split at h
    · simp only [mem_dueIf, decide_eq_true_eq] at h
      obtain ⟨h, rfl⟩ := h
      exact .replyWindowExpiry _ hn ‹_› h
    · simp only [mem_dueIf, decide_eq_true_eq] at h
      obtain ⟨h, rfl⟩ := h
      exact .repeatIntervalExpiry _ hn ‹_› h
    · simp at h

theorem mem_dueCabinEntry (s : State) (hn : s.start.node = .run) (c : Instr)
    (h : c ∈ dueCabinEntry s) : EventDue s c := by
  unfold dueCabinEntry at h
  split at h
  · simp at h
  · split at h <;> simp only [List.mem_singleton, List.not_mem_nil] at h <;> subst h <;>
      exact .cabinEntry _ _ _ hn ‹_› (by simp_all)

theorem mem_dueOfTransmitter (s : State) (c : Instr) (h : c ∈ dueOfTransmitter s) :
    EventDue s c := by
  unfold dueOfTransmitter frameGap at h
  split at h
  · simp only [mem_dueIf, decide_eq_true_eq] at h
    obtain ⟨h, rfl⟩ := h
    exact .gapReached _ ‹_› h
  · simp only [mem_dueIf, decide_eq_true_eq] at h
    obtain ⟨h, rfl⟩ := h
    exact .backoffEnd _ _ _ ‹_› h
  · simp at h

theorem mem_dueInRun (s : State) (hn : s.start.node = .run) (c : Instr) (h : c ∈ dueInRun s) :
    EventDue s c := by
  simp only [dueInRun, List.mem_append, List.mem_flatMap, mem_dueIf] at h
  rcases h with ((((((((h | ⟨r, hr, h⟩) | h) | ⟨h, rfl⟩) | h) | h) | h) | h) | ⟨h, rfl⟩)
    | ⟨e, he, h, rfl⟩
  · exact mem_dueCabinEntry s hn c h
  · exact mem_dueOfRecord s r hr hn c h
  · exact mem_dueOfHandoff s hn c h
  · obtain ⟨v, e⟩ := Option.isSome_iff_exists.mp h
    exact .resolutionComplete v hn e
  · exact mem_dueOfOutlet s 0 c h
  · exact mem_dueOfOutlet s 1 c h
  · exact mem_dueOfOutlet s 2 c h
  · exact mem_dueOfOutlet s 3 c h
  · simp only [readerFollowed, Bool.and_eq_true, timerUp_iff] at h
    exact .readerGapTimeout hn h.1.2 h.2
  · simp only [canFallSilent, silenceMs, State.image, Bool.and_eq_true, Bool.not_eq_true',
      decide_eq_true_eq] at h
    exact .silenceTimeout e hn he h.1.1 h.1.2 (of_decide_eq_true h.2)

theorem dueInRun_of_record {s : State} {r : Record} {c : Instr} (hn : s.start.node = .run)
    (hr : r ∈ s.track.table) (h : c ∈ dueOfRecord s r) :
    c ∈ if inRun s then dueInRun s else [] := by
  rw [if_pos (by simpa [inRun] using hn)]
  have : c ∈ s.track.table.flatMap (dueOfRecord s) := List.mem_flatMap.mpr ⟨r, hr, h⟩
  simp [dueInRun, this]

theorem dueInRun_of_outlet {s : State} {k : OutletNo} {c : Instr} (hn : s.start.node = .run)
    (h : c ∈ dueOfOutlet s k) : c ∈ if inRun s then dueInRun s else [] := by
  rw [if_pos (by simpa [inRun] using hn)]
  match k with
  | 0 => simp [dueInRun, h]
  | 1 => simp [dueInRun, h]
  | 2 => simp [dueInRun, h]
  | 3 => simp [dueInRun, h]

/-- `dueEvents` lists exactly the events that are due, once the reset input is released. -/
theorem mem_dueEvents (s : State) (c : Instr) :
    c ∈ dueEvents s ↔ s.start.resetHeld = false ∧ EventDue s c := by
  constructor
  · intro h
    unfold dueEvents at h
    split at h
    · rename_i hp
      refine ⟨by simpa [powered] using hp, ?_⟩
      simp only [List.mem_append, mem_dueIf, timerUp_iff] at h
      rcases h with ((h | ⟨h, rfl⟩) | ⟨h, rfl⟩) | h
      · split at h
        · rename_i hn
          exact mem_dueInRun s (by simpa [inRun] using hn) c h
        · simp at h
      · exact .speedWindowEnd h
      · exact .statusTimerExpiry h
      · exact mem_dueOfTransmitter s c h
    · simp at h
  · rintro ⟨hp, h⟩
    have hp : powered s = true := by simp [powered, hp]
    unfold dueEvents
    rw [if_pos hp]
    simp only [List.mem_append, mem_dueIf, timerUp_iff]
    cases h with
    | speedWindowEnd h => exact .inl (.inl (.inr ⟨h, rfl⟩))
    | statusTimerExpiry h => exact .inl (.inr ⟨h, rfl⟩)
    | gapReached h e g => exact .inr (by simp [dueOfTransmitter, frameGap, e, mem_dueIf, g])
    | backoffEnd h l n e g => exact .inr (by simp [dueOfTransmitter, e, mem_dueIf, g])
    | readWindowOpen r p hn f hr w e g =>
      refine .inl (.inl (.inl (dueInRun_of_record hn hr ?_)))
      simp [dueOfRecord, mem_dueIf, windowOpenReached, State.image, w, f, e, g]
    | readWindowClose r p hn f hr w e g =>
      refine .inl (.inl (.inl (dueInRun_of_record hn hr ?_)))
      simp [dueOfRecord, mem_dueIf, windowCloseReached, State.image, w, f, e, g]
    | arming r p k hn hr a b v m e g =>
      refine .inl (.inl (.inl (dueInRun_of_record hn hr ?_)))
      simp [dueOfRecord, mem_dueIf, armingReached, outletImage, State.image, a, b, v, m, e, g]
    | fire r p k hn hr a v e g =>
      refine .inl (.inl (.inl (dueInRun_of_record hn hr ?_)))
      simp [dueOfRecord, mem_dueIf, fireReached, a, v, e, g]
    | confirmTimeout r k hn hr a v t =>
      refine .inl (.inl (.inl (dueInRun_of_record hn hr ?_)))
      simp [dueOfRecord, mem_dueIf, a, v, timerUp_iff, outletImage, State.image, t]
    | offerPoint r p hn hr a b e g =>
      refine .inl (.inl (.inl (dueInRun_of_record hn hr ?_)))
      simp [dueOfRecord, mem_dueIf, offerPointReached, State.image, a, b, e, g]
    | segmentExit r p hn hr a e g =>
      refine .inl (.inl (.inl (dueInRun_of_record hn hr ?_)))
      simp [dueOfRecord, mem_dueIf, exitReached, State.image, a, e, g]
    | expectedDeadline r rest p hn e d g =>
      refine .inl (.inl (.inl ?_))
      simp [inRun, hn, dueInRun, dueOfHandoff, mem_dueIf, deadlineReached, e, d, g]
    | discardTimeout r hn hr a t =>
      refine .inl (.inl (.inl ?_))
      rw [if_pos (by simpa [inRun] using hn)]
      have : Instr.discardTimeout r.ref ∈ dueOfHandoff s := by
        simp only [dueOfHandoff, List.mem_append, List.mem_flatMap, mem_dueIf]
        exact .inl (.inr ⟨r, hr, by simp [a, timerUp_iff, State.image, t]⟩)
      simp [dueInRun, this]
    | replyWindowExpiry n hn e g =>
      refine .inl (.inl (.inl ?_))
      simp [inRun, hn, dueInRun, dueOfHandoff, mem_dueIf, e, State.image, g]
    | repeatIntervalExpiry n hn e g =>
      refine .inl (.inl (.inl ?_))
      simp [inRun, hn, dueInRun, dueOfHandoff, mem_dueIf, e, State.image, g]
    | cabinEntry e rest c hn h k =>
      refine .inl (.inl (.inl ?_))
      have : c ∈ dueCabinEntry s := by
        rcases k with ⟨k, rfl⟩ | ⟨k, rfl⟩ | ⟨k, rfl⟩ | ⟨k, rfl⟩ <;> simp [dueCabinEntry, h, k]
      simp [inRun, hn, dueInRun, this]
    | resolutionComplete v hn e =>
      refine .inl (.inl (.inl ?_))
      simp [inRun, hn, dueInRun, mem_dueIf, e]
    | dwellExpiry k hn a b t =>
      refine .inl (.inl (.inl (dueInRun_of_outlet hn (k := k) ?_)))
      simp [dueOfOutlet, mem_dueIf, outletActive, inRun, outletImage, State.image, timerUp_iff, hn, a, b, t]
    | homeTimeout k hn a b t =>
      refine .inl (.inl (.inl (dueInRun_of_outlet hn (k := k) ?_)))
      simp [dueOfOutlet, mem_dueIf, outletActive, inRun, outletImage, State.image, timerUp_iff, hn, a, b, t]
    | readerGapTimeout hn f t =>
      refine .inl (.inl (.inl ?_))
      simp [inRun, hn, dueInRun, mem_dueIf, readerFollowed, State.image, timerUp_iff, f,
        Config.readerGapMs, t]
    | silenceTimeout e hn he a b g =>
      refine .inl (.inl (.inl ?_))
      rw [if_pos (by simpa [inRun] using hn)]
      simp only [dueInRun, List.mem_append, List.mem_flatMap, mem_dueIf]
      exact .inr ⟨e, he, by simp [canFallSilent, silenceMs, State.image, a, b, g]⟩

end Sys2Proof.Machine
end

