-- ==== Sys2Proof/Laws/Line.lean ====
section
/-! SUPPORT. The receiver: what its operations leave alone, and that a byte in the buffer counts as one
of the bytes that a row brings. Idle bit times: what they leave alone, and that they add up. -/

namespace Sys2Proof.Machine

variable (s : State)

@[simp] theorem setReceiver_line (r : Receiver) (buffer : List Byte) :
    (setReceiver r buffer s).line = { s.line with receiver := r, buffer, idleCount := 0 } := rfl

@[simp] theorem setReceiver_start (r : Receiver) (buffer : List Byte) :
    (setReceiver r buffer s).start = s.start := rfl

@[simp] theorem setReceiver_pending (r : Receiver) (buffer : List Byte) :
    (setReceiver r buffer s).pending = s.pending := rfl

/-- The end of a frame leaves nothing of what the receiver did before it. -/
@[simp] theorem endFrame_setReceiver (r : Receiver) (buffer : List Byte) :
    endFrame (setReceiver r buffer s) = endFrame s := rfl

/-- A frame in progress has a head in the buffer. -/
theorem headInProgress_eq_some {s : State} {h : Byte} (e : headInProgress s = some h) :
    s.line.receiver = .body ∧ s.line.buffer = h :: s.line.buffer.tail := by
  unfold headInProgress at e
  split at e
  · rename_i x y hr hb
    cases e
    exact ⟨hr, by rw [hb]; rfl⟩
  · cases e

/-- A byte that enters the buffer is no longer among those still to come: head and body stay as they
are. -/
theorem collected_byte {s : State} {h : Byte} (e : headInProgress s = some h) (b : Byte)
    (more : List Byte) :
    headInProgress (setReceiver .body (s.line.buffer ++ [b]) s) = some h
      ∧ bodyWith (setReceiver .body (s.line.buffer ++ [b]) s) more = bodyWith s (b :: more) := by
  have hb := (headInProgress_eq_some e).2
  rw [hb]
  simp [headInProgress, bodyWith]

/-- The same for the good frame that is handed on. -/
theorem goodFrame_collected {s : State} {h : Byte} (e : headInProgress s = some h) (b : Byte)
    (more : List Byte) :
    goodFrame (setReceiver .body (s.line.buffer ++ [b]) s) more = goodFrame s (b :: more) := by
  obtain ⟨h1, h2⟩ := collected_byte e b more
  unfold goodFrame
  rw [h1, h2, e]

/-- All that a body character can do in BODY (R110): it overruns the buffer, ends the frame, or waits in
the buffer for more. -/
theorem collect_cases (b : Byte) :
    (32 ≤ s.line.buffer.length ∧ collect b s = .next (bump .overruns (endFrame s)))
      ∨ (s.line.buffer.length < 32
        ∧ bodyEnds (s.line.buffer ++ [b]).tail = true
        ∧ collect b s = endOfFrame (setReceiver .body (s.line.buffer ++ [b]) s))
      ∨ (s.line.buffer.length < 32
        ∧ bodyEnds (s.line.buffer ++ [b]).tail = false
        ∧ collect b s = .next (setReceiver .body (s.line.buffer ++ [b]) s)) := by
  simp only [collect, Config.bufferBytes, bodyWith, setReceiver_line, List.append_nil]
  by_cases h : 32 ≤ s.line.buffer.length
  · simp [h]
  · cases h2 : bodyEnds (s.line.buffer ++ [b]).tail <;> simp [h] <;> omega

/-! ## Idle bit times -/

/-- Idle bit times one after another are those bit times at once (R115, R117). -/
theorem idleBits_idleBits (m n : Nat) (u : LineInterface) :
    idleBits n (idleBits m u) = idleBits (m + n) u := by
  unfold idleBits Config.idleLimit
  cases h : u.transmitter <;> simp <;> omega

/-- What bit times of idle line leave alone. -/
@[simp] theorem idleBits_rest (n : Nat) (u : LineInterface) :
    (idleBits n u).receiver = u.receiver ∧ (idleBits n u).buffer = u.buffer
      ∧ (idleBits n u).rate = u.rate ∧ (idleBits n u).msBits = u.msBits
      ∧ (idleBits n u).answers = u.answers ∧ (idleBits n u).notices = u.notices
      ∧ (idleBits n u).turn = u.turn := ⟨rfl, rfl, rfl, rfl, rfl, rfl, rfl⟩

/-- The frame that the transmitter holds stays the one it holds. -/
@[simp] theorem heldFrame_idleBits (n : Nat) (u : LineInterface) :
    heldFrame (idleBits n u).transmitter = heldFrame u.transmitter := by
  unfold idleBits
  cases h : u.transmitter <;> rfl

/-- One bit time of the line: nothing, or an idle one. -/
theorem tickLine_cases (u : LineInterface) :
    ((u.receiver = .off ∨ ∃ h, u.transmitter = .sending h) ∧ tickLine u = u)
      ∨ (u.receiver ≠ .off ∧ (∀ h, u.transmitter ≠ .sending h) ∧ tickLine u = idleBits 1 u) := by
  unfold tickLine
  cases hr : u.receiver <;> cases ht : u.transmitter <;> simp

end Sys2Proof.Machine
end

