-- ==== Sys2Proof/Laws/Ops.lean ====
section
/-! SUPPORT. For each shared operation, one lemma that says what it does. -/

namespace Sys2Proof.Machine

/-! ## Counters -/

theorem Counters_get_set_same (cs : Counters) (c : Counter) (n : Nat) : (cs.set c n).get c = n := by
  cases c <;> simp [Counters.get, Counters.set]

theorem Counters_get_set_other (cs : Counters) {c d : Counter} (n : Nat) (h : d ≠ c) :
    (cs.set c n).get d = cs.get d := by
  cases c <;> cases d <;> simp_all [Counters.get, Counters.set, Quad_get_set_other]

theorem Counters_set_get (cs : Counters) (c : Counter) : cs.set c (cs.get c) = cs := by
  cases c <;> simp [Counters.get, Counters.set]

/-- All that a counter's rise does (R166, R168). -/
theorem bump_eq (c : Counter) (s : State) :
    bump c s = { s with supervision := raised c s.supervision } := by
  unfold bump raised nextCount
  simp only [State.counter, Config.counterLimit]
  by_cases h : 65535 ≤ s.supervision.counters.get c
  · have h' : ¬ s.supervision.counters.get c < 65535 := by omega
    have h'' : ¬ s.supervision.counters.get c = 65534 := by omega
    simp only [h, if_true, h', if_false, h'', decide_false, Bool.or_false, Counters_set_get]
  · by_cases h2 : s.supervision.counters.get c = 65534
    · simp [h2, setCountLimit, State.mapFlags, State.mapSupervision]
    · have h3 : ¬ s.supervision.counters.get c + 1 = 65535 := by omega
      have h4 : s.supervision.counters.get c < 65535 := by omega
      simp [h, h2, h3, h4, State.mapSupervision]

theorem bump_supervision (c : Counter) (s : State) :
    (bump c s).supervision = raised c s.supervision := by rw [bump_eq]

@[simp] theorem raised_get_same (c : Counter) (u : SupervisionUnit) :
    (raised c u).counters.get c = nextCount (u.counters.get c) := by
  simp [raised, Counters_get_set_same]

theorem raised_get_other {c d : Counter} (u : SupervisionUnit) (h : d ≠ c) :
    (raised c u).counters.get d = u.counters.get d := by
  simp [raised, Counters_get_set_other _ _ h]

@[simp] theorem raised_rest (c : Counter) (u : SupervisionUnit) :
    (raised c u).statusTimer = u.statusTimer ∧ (raised c u).statusPeriod = u.statusPeriod
      ∧ (raised c u).statusDue = u.statusDue ∧ (raised c u).crowded = u.crowded := by
  simp [raised]

/-! ## Records in collections -/

theorem findIn_ref {l : List Record} {ref : BagRef} {r : Record} (h : findIn l ref = some r) :
    r.ref = ref := by
  simpa using List.find?_some h

theorem findIn_mem {l : List Record} {ref : BagRef} {r : Record} (h : findIn l ref = some r) :
    r ∈ l := List.mem_of_find?_eq_some h

theorem findIn_eq_none {l : List Record} {ref : BagRef} :
    findIn l ref = none ↔ ref ∉ l.map (·.ref) := by
  simp [findIn, List.find?_eq_none]

@[simp] theorem updateIn_map_ref (l : List Record) (ref : BagRef) (f : Record → Record)
    (hf : ∀ r, (f r).ref = r.ref) : (updateIn l ref f).map (·.ref) = l.map (·.ref) := by
  simp only [updateIn, List.map_map]
  apply List.map_congr_left
  intro r _
  simp only [Function.comp]
  split <;> simp [hf]

theorem updateIn_absent {l : List Record} {ref : BagRef} (f : Record → Record)
    (h : ref ∉ l.map (·.ref)) : updateIn l ref f = l := by
  unfold updateIn
  conv_rhs => rw [← List.map_id l]
  apply List.map_congr_left
  intro r hr
  have : r.ref ≠ ref := fun e => h (e ▸ List.mem_map_of_mem hr)
  simp [this]

/-- What a record's change leaves to be found: the changed record under its bag ref. -/
theorem findIn_updateIn_same (l : List Record) (ref : BagRef) (f : Record → Record)
    (hf : ∀ r, (f r).ref = r.ref) : findIn (updateIn l ref f) ref = (findIn l ref).map f := by
  induction l with
  | nil => rfl
  | cons a l ih =>
    simp only [findIn, updateIn, List.map_cons, List.find?_cons] at ih ⊢
    by_cases h : a.ref = ref
    · simp [h, hf]
    · simp only [h, if_false, decide_false]
      exact ih

/-- Other records stay. -/
theorem findIn_updateIn_other (l : List Record) {ref other : BagRef} (f : Record → Record)
    (hf : ∀ r, (f r).ref = r.ref) (h : other ≠ ref) :
    findIn (updateIn l ref f) other = findIn l other := by
  induction l with
  | nil => rfl
  | cons a l ih =>
    simp only [findIn, updateIn, List.map_cons, List.find?_cons] at ih ⊢
    by_cases ha : a.ref = ref
    · have : a.ref ≠ other := fun e => h (e ▸ ha)
      simp only [ha, if_true, hf]
      rw [ha] at this
      simp only [this, decide_false]
      exact ih
    · simp only [ha, if_false]
      split
      · rfl
      · exact ih

/-! ## The arbiter -/

theorem arbiterOnly_refl (s : State) : ArbiterOnly s s := ⟨rfl, rfl⟩

theorem arbiterOnly_trans {s t u : State} (h : ArbiterOnly s t) (k : ArbiterOnly t u) :
    ArbiterOnly s u := by
  refine ⟨?_, k.2.trans h.2⟩
  rw [k.1, h.1]

theorem arbiterOnly_setTransmitter (t : Transmitter) (s : State) :
    ArbiterOnly s (setTransmitter t s) := ⟨rfl, rfl⟩

theorem arbiterOnly_enterWaitGap (h : HeldFrame) (s : State) : ArbiterOnly s (enterWaitGap h s) := by
  unfold enterWaitGap
  constructor
  · simp only [State.mapLine]
    split <;> rfl
  · simp

/-- All that a frame's entry into WAIT-GAP does to the line (R115). -/
theorem gapEntered_enterWaitGap (h : HeldFrame) (s : State) :
    GapEntered h s.line.idleCount (enterWaitGap h s).line := by
  unfold GapEntered enterWaitGap frameGap
  simp only [State.mapLine]
  constructor <;> intro g
  · simp [g]
  · simp [Nat.not_le.mpr g]

theorem arbiterOnly_setStage (g : OfferStage) (s : State) : ArbiterOnly s (setStage g s) := by
  refine ⟨rfl, ?_⟩
  simp [setStage, Function.comp_def]

theorem arbiterOnly_setStatusDue (d : DueStatus) (s : State) : ArbiterOnly s (setStatusDue d s) :=
  ⟨rfl, rfl⟩

theorem arbiterOnly_markTaken (src : FrameSource) (s : State) : ArbiterOnly s (markTaken src s) := by
  cases src
  · exact arbiterOnly_refl s
  · exact arbiterOnly_setStage _ s
  · exact arbiterOnly_refl s
  · exact arbiterOnly_setStatusDue _ s

theorem arbiterOnly_markReturned (src : FrameSource) (s : State) :
    ArbiterOnly s (markReturned src s) := by
  cases src
  · exact arbiterOnly_refl s
  · exact arbiterOnly_setStage _ s
  · exact arbiterOnly_refl s
  · exact arbiterOnly_setStatusDue _ s

theorem arbiterOnly_handOver (s : State) : ArbiterOnly s (handOver s) := by
  unfold handOver
  split
  · exact arbiterOnly_refl s
  · split
    · exact arbiterOnly_refl s
    · exact arbiterOnly_trans (arbiterOnly_markTaken _ s) (arbiterOnly_enterWaitGap _ _)

theorem arbiterOnly_takeBack (s : State) : ArbiterOnly s (takeBack s) := by
  unfold takeBack
  split
  · split
    · exact arbiterOnly_trans (arbiterOnly_markReturned _ s) (arbiterOnly_setTransmitter _ _)
    · exact arbiterOnly_refl s
  · exact arbiterOnly_refl s

/-! ## The outbound offer -/

/-- The end of an offer withdraws its frame in WAIT-GAP or BACKOFF and leaves any other (R119, R134). -/
theorem endOfferFrame_withdraws (s : State) : OfferWithdrawn s (endOfferFrame s) := by
  unfold OfferWithdrawn OfferFrameWaits endOfferFrame
  cases e : s.handoff.outbound with
  | none => simp
  | some o =>
    rcases hs : o.stage <;> simp only [holdsFrameOf, hs, if_true, Bool.false_eq_true, if_false] <;>
      cases et : s.line.transmitter <;>
      simp [withdrawOffer, heldFrame, hs, et] <;>
      (try split) <;> simp_all

end Sys2Proof.Machine
end

