-- ==== Sys2Proof/WellFormed.lean ====
section
/-! DEFINITION. When a command is one that the outside can send: what its operands must be whatever
the node's state. The meanings are total: they do not rest on these checks. -/

namespace Sys2Proof

open Machine

/-- A bag ref names a station 1..30 and a sequence 0..2047 (section 2.1). -/
def BagRef.wellFormed (r : BagRef) : Bool := validStation r.station && decide (r.seq ≤ 2047)

/-- The rest of a frame that ends in BODY: at least the byte that ends it, and at most the 31 that the
buffer takes behind the head (R110). -/
def wellFormedRest (body : List Byte) : Bool := decide (1 ≤ body.length ∧ body.length ≤ 31)

/-- The checks, command by command. -/
def Instr.wellFormed : Instr → Bool
  | .startSequenceEnd image => decide (image.length ≤ 256)
  | .readerMessage bytes => decide (1 ≤ bytes.length ∧ bytes.length ≤ 6)
  | .readWindowOpen r | .readWindowClose r | .arming r | .fire r | .confirmTimeout r
  | .offerPoint r | .segmentExit r | .discardTimeout r => r.wellFormed
  | .silenceTimeout n => validStation n
  | .cabinFrame b | .offerReceived b | .takeReceived b | .waitReceived b | .spurnReceived b
  | .codeReceived b | .crowdReceived b | .statusReceived b | .askStatus b | .askCounts b
  | .holdRead b | .holdSet b | .holdClear b | .holdToggle b | .zero b
  | .faultOffer b | .faultCode b | .faultAsk b | .badFrame b | .unactedFrame b => wellFormedRest b
  | .receiveOverrun b => decide (1 ≤ b.length ∧ b.length ≤ 32)
  | .frameHead c => charSound c
  | .characterError c => !charSound c
  | .damagedReaderByte b stopOk => !stopOk || decide (b ≠ Config.readerMarker)
  | .powerUpReset | .resetRelease _ _ | .encoderPulse | .speedWindowEnd | .entryEyeArrival
  | .entryEyeTrailingEdge | .mergeArrival _ | .mergeEyeTrailingEdge | .readerGapTimeout
  | .resolutionComplete | .cabinEntryClear | .cabinEntryCancelled | .cabinEntryHold
  | .cabinEntryRedirect | .dwellExpiry _ | .homeTimeout _ | .homeSensorEdge _ _ | .chuteEntry _
  | .cartSwap _ | .cartRemoval _ | .holdSwitchChange _ _ | .replyWindowExpiry
  | .repeatIntervalExpiry | .expectedDeadline | .gapReached | .frameSent | .collision
  | .backoffEnd | .statusTimerExpiry | .segmentClearAssert | .segmentClearRelease => true

end Sys2Proof
end

