-- ==== Sys2Proof/Tests/Slice0.lean ====
section
/-! SUPPORT. Small tests: the ill-formed commands that `WellFormed` refuses, the manual's worked figures,
and for each statement with hypotheses a state and operands that meet them together. -/

namespace Sys2Proof.Tests

set_option Elab.async false

open Sys2Proof Sys2Proof.Machine

/-! ## A node to test with -/

/-- An outlet of the test node. -/
def outletAt (role : Role) (d : Nat) : OutletConfig :=
  { role, distance := d, maxLength := 120, leadSlow := 50, leadNormal := 60, leadFast := 70,
    dwell := 30, homeTimeout := 40, confirmTimeout := 100, capacity := 5 }

/-- The windows of section 3.1. -/
def tableWindows : List Window :=
  [⟨8000, 8999, 0, some ⟨60, 99, 1⟩⟩, ⟨9000, 9999, 1, none⟩, ⟨11000, 11199, 2, none⟩,
    ⟨65535, 0, 0, none⟩, ⟨8500, 9500, 2, none⟩]

/-- The test node's image values: the bands of section 1.8, the windows of section 3.1. -/
def cfg : NodeConfig :=
  { rate := .kbit250, manifest := 28, coding := 29, supervisory := 30, downstream := 8,
    loopHead := false, lapLimit := 3, readerFitted := true, readerRate := 1, readerDistance := 200,
    readerLatency := 30, tolerance := 10, armDistance := 100, gapSlow := 10, gapNormal := 20,
    gapFast := 30, up01 := 120, up12 := 260, hysteresis := 20, stopThreshold := 8,
    statusPeriod := 100, offerDistance := 900, segmentLength := 1000, replyWindow := 3,
    repeatInterval := 5, attemptLimit := 3, expectDistance := 400, discardTimeout := 50,
    induction := true, mergeDistance := 90, mergeWindow := 20, watchSet := 0x30, silenceTimeout := 3,
    highWater := 40, lowWater := 32,
    outlets := ⟨outletAt .deck 300, outletAt .deck 400, outletAt .deck 500, outletAt .stray 600⟩,
    windows := tableWindows }

/-- A node of station 5 in RUN, its line on, its records none. -/
def run : State :=
  { State.reset with
    start :=
      { node := .run, faultReason := .none, resetHeld := false, station := 5, clearHeld := false,
        image := cfg }
    line := { State.reset.line with receiver := .hunt } }

/-- The same node in FAULT. -/
def faulted : State := { run with start := { run.start with node := .fault, faultReason := .range } }

/-- A record of station 4 whose leading edge passed the eye at a position. -/
def bag (seq : Nat) (lead : Position) : Record :=
  newRecord ⟨4, seq⟩ lead (some ⟨8112, 1, .read⟩) none

/-- The node with a track table, at a position. -/
def at_ (p : Position) (table : List Record) (s : State) : State :=
  { s with position := { s.position with counter := p }, track := { s.track with table } }

/-- The node in the middle of a frame addressed to a station. -/
def inFrame (dest : Nat) (s : State) : State :=
  { s with line := { s.line with receiver := .body, buffer := [byteOf dest] } }

/-- The body of a frame from a station. -/
def bodyOf (source dest : Nat) (k : FrameKind) (p : List Byte) : List Byte :=
  (frameBytes source ⟨dest, k, p⟩).tail

/-- What stays to be evaluated of `BagsKept` where every counter is 0. -/
theorem bagsKept_of (s : State) (hc : s.supervision.counters = Counters.allZero)
    (h : s.track.table.length ≤ 48 ∧ s.handoff.expected.length ≤ 8
      ∧ s.handoff.pendingOffers.length ≤ 4 ∧ s.line.answers.length ≤ 4 ∧ s.line.notices.length ≤ 8
      ∧ s.induction.codes.length ≤ 8 ∧ s.resolution.exceptions.length ≤ 256
      ∧ (∀ k, (s.outlets.get k).fill ≤ 255) ∧ s.position.windowCount ≤ 4095 ∧ s.track.bagSeq ≤ 2047
      ∧ (s.resolution.exceptions.map (·.cabin)).Pairwise (· < ·)
      ∧ ((heldRecords s).map (·.ref)).Nodup) : BagsKept s := by
  obtain ⟨a, b, c, d, e, f, g, i, j, k, l, m⟩ := h
  refine ⟨⟨a, b, c, d, e, f, g, fun x => ?_, i, j, k⟩, l, m⟩
  have z : s.counter x = 0 := by
    unfold State.counter
    rw [hc]
    cases x with
    | delivered k => exact match k with
      | 0 => rfl
      | 1 => rfl
      | 2 => rfl
      | 3 => rfl
    | _ => rfl
  omega

/-! ## What the outside cannot send -/

theorem test_wf_image : (Instr.startSequenceEnd (List.replicate 257 0)).wellFormed = false := by
  decide +kernel
theorem test_wf_reader_message : (Instr.readerMessage []).wellFormed = false
    ∧ (Instr.readerMessage [0xA5, 2, 0, 0, 0, 0x59, 0]).wellFormed = false
    ∧ (Instr.readerMessage [0xA5]).wellFormed = true := by decide
theorem test_wf_bag_ref : (Instr.arming ⟨31, 0⟩).wellFormed = false
    ∧ (Instr.fire ⟨0, 0⟩).wellFormed = false ∧ (Instr.segmentExit ⟨4, 2048⟩).wellFormed = false
    ∧ (Instr.readWindowOpen ⟨31, 0⟩).wellFormed = false
    ∧ (Instr.readWindowClose ⟨31, 0⟩).wellFormed = false
    ∧ (Instr.confirmTimeout ⟨31, 0⟩).wellFormed = false
    ∧ (Instr.offerPoint ⟨31, 0⟩).wellFormed = false
    ∧ (Instr.discardTimeout ⟨4, 2047⟩).wellFormed = true := by decide
theorem test_wf_silence : (Instr.silenceTimeout 31).wellFormed = false := by decide
theorem test_wf_rest : (Instr.cabinFrame []).wellFormed = false
    ∧ (Instr.offerReceived (List.replicate 32 0)).wellFormed = false
    ∧ (Instr.zero [0x15]).wellFormed = true ∧ (Instr.zero [30, 15, 0, 0x15]).wellFormed = true := by
  decide
theorem test_wf_overrun : (Instr.receiveOverrun []).wellFormed = false
    ∧ (Instr.receiveOverrun (List.replicate 33 0)).wellFormed = false := by decide
theorem test_wf_head : (Instr.frameHead ⟨5, true, true, false⟩).wellFormed = false
    ∧ (Instr.frameHead ⟨5, true, false, true⟩).wellFormed = false
    ∧ (Instr.frameHead (charOf 5 false)).wellFormed = true
    ∧ (Instr.frameHead (charOf 5 true)).wellFormed = true := by decide
theorem test_wf_character_error : (Instr.characterError (charOf 5 false)).wellFormed = false := by
  decide
theorem test_wf_damaged_byte : (Instr.damagedReaderByte 0xA5 true).wellFormed = false := by decide

/-! ## The manual's worked figures -/

/-- Section 1.2: the table of distances. -/
theorem test_distance : Machine.dist 120000 126087 = 6087 ∧ Machine.dist 126087 120000 = -6087
    ∧ Machine.dist 16776000 4871 = 6087 ∧ Machine.dist 4871 16776000 = -6087
    ∧ Machine.dist 100 8388707 = 8388607 ∧ Machine.dist 100 8388708 = -8388608 := by decide

/-- A window end of section 1.8: the ring, the band and the window's count before it. -/
def afterWindow (ring : Quad Nat) (band : Band) (n : Nat) : PositionUnit :=
  endWindow true cfg { run.position with ring, band, windowCount := n }

/-- Section 1.8, window ends 4, 8, 10, 11, 14 and 16. -/
theorem test_window_ends :
    ((afterWindow ⟨0, 12, 30, 48⟩ .slow 50).speed, (afterWindow ⟨0, 12, 30, 48⟩ .slow 50).band)
      = (140, .normal)
      ∧ (afterWindow ⟨50, 65, 70, 70⟩ .normal 72).band = .fast
      ∧ (afterWindow ⟨70, 70, 72, 60⟩ .fast 55).band = .fast
      ∧ (afterWindow ⟨70, 72, 60, 55⟩ .fast 50).band = .normal
      ∧ (afterWindow ⟨55, 50, 20, 0⟩ .normal 0).band = .slow
      ∧ (afterWindow ⟨55, 50, 20, 0⟩ .normal 0).stopped = false
      ∧ (afterWindow ⟨20, 0, 0, 0⟩ .slow 0).stopped = true := by decide

/-- Section 2.6: 640 and 650 agree at 10 percent, 820 and 950 do not. -/
theorem test_lengths : lengthsDisagree 10 640 650 = false ∧ lengthsDisagree 10 820 950 = true := by
  decide

/-- Section 3.1: the table of lookups. -/
theorem test_windows :
    [8112, 8175, 8760, 9203, 11150, 11207, 14022].map (lookupVerdict run)
      = [.divert 0, .divert 1, .divert 1, .divert 1, .divert 2, .pass, .pass] := by decide

/-- Section 4.4: the four leads, the fire positions, and the wrap case. -/
theorem test_fire_positions :
    [pusherLead 185 200 1500, pusherLead 180 200 1500, pusherLead 185 0 1500,
        pusherLead 2000 16380 1500] = [463, 450, 0, 1500]
      ∧ firePositionOf 120000 6200 700 463 = 126087 ∧ firePositionOf 120000 6200 700 1500 = 125050
      ∧ firePositionOf 16776000 6200 700 463 = 4871 := by decide

/-- Section 6.7: the back-offs of stations 7 and 8. -/
theorem test_backoff : [backoffLength 7 1, backoffLength 8 1, backoffLength 8 2] = [24, 48, 72] := by
  decide

/-- Section 6.7: node 7's STATUS has 23 characters and node 8's CROWD has 7. -/
theorem test_frame_lengths : (frameBytes 7 ⟨31, .status, statusPayload run⟩).length = 23
    ∧ (frameBytes 8 ⟨31, .crowd, crowdPayload true 40⟩).length = 7
    ∧ (frameBytes 5 ⟨31, .missing, missingPayload (bag 1 0)⟩).length = 10 := by decide

/-- A character's bits (R106): head 31 has six ones with the mark, so the parity bit is 0. -/
theorem test_character : charBits (charOf 31 true)
    = [false, true, true, true, true, true, false, false, false, true, false, true] := by decide

/-- A node of section 8.7 in band 1, with the image values of its merge zone. -/
def mergeNode (p : Position) (table : List Record) : State :=
  at_ p table { run with
    position := { run.position with band := .normal, stopped := false }
    start := { run.start with
      image := { cfg with
        mergeDistance := 2000, mergeWindow := 600, gapSlow := 300, gapNormal := 400, gapFast := 500,
        readerDistance := 2900 } } }

/-- The two records of section 8.7. -/
def zoneBags : List Record :=
  [{ bag 601 397100 with trail := some 397800 }, { bag 88 399100 with trail := some 399700 }]

/-- Section 8.7: the permit at four of its positions. -/
theorem test_zone :
    [400000, 400201, 402100, 402101].map (fun p => permitConditions (mergeNode p zoneBags))
      = [false, false, false, true] := by decide +kernel

/-- Section 8.7: the record made at 402,400 takes its place at the tail, its travel 2,000. -/
theorem test_merge_place :
    ∃ t, exec (.mergeArrival false) (mergeNode 402400 zoneBags) = .next t
      ∧ t.track.table.map (·.lead) = [some 397100, some 399100, some 400400] :=
  ⟨_, rfl, by decide +kernel⟩

/-- Section 9.7: HOLD set with mask 0010b, then toggle with mask 0110b. -/
theorem test_hold :
    holdBits 1 (maskBits 2) ⟨false, false, false, false⟩ = ⟨false, true, false, false⟩
      ∧ holdBits 3 (maskBits 6) ⟨false, true, false, false⟩ = ⟨false, false, true, false⟩
      ∧ maskByte ⟨false, true, false, false⟩ = 2 := by decide

/-- Section 3.6, steps 1 and 2: the table in ascending order after two entries. -/
theorem test_exceptions :
    (storeException ⟨14022, .redirect 9203⟩ (storeException ⟨8112, .cancelled⟩
      [⟨8175, .hold⟩, ⟨9203, .redirect 11150⟩, ⟨11120, .cancelled⟩])).map (·.cabin)
      = [8112, 8175, 9203, 11120, 14022] := by decide

/-- An image that passes every check: two DECK outlets, a STRAY outlet and an UNUSED one. -/
def imageOf (filler : Byte) : List Byte :=
  let w := u16
  let head : List Byte := [0xC4, 32, 28, 29, 30, 8, 0, 3, 1, 1] ++ w 200 ++ w 30 ++ [10] ++ w 100
    ++ w 10 ++ w 20 ++ w 30 ++ w 20 ++ w 60 ++ w 5 ++ [4] ++ w 100 ++ w 900 ++ w 1000 ++ [3, 5, 3]
    ++ w 400 ++ [50, 1] ++ w 90 ++ w 20 ++ [0, 0, 0, 0x30, 3, 6, 3]
  let outlet (role : Byte) (d : Nat) := [role] ++ w d ++ w 120 ++ w 50 ++ w 60 ++ w 70 ++ w 30
    ++ w 40 ++ w 100 ++ [5]
  let body := head ++ outlet 1 300 ++ outlet 1 400 ++ outlet 2 500 ++ outlet 0 0
    ++ w 8000 ++ w 8999 ++ [0, 1, 60, 99, 1] ++ w 9000 ++ w 9999 ++ [1, 0, 0, 0, 0]
    ++ (List.replicate 6 (w 65535 ++ w 0 ++ [0, 0, 0, 0, 0])).flatten ++ List.replicate 57 filler
  body ++ [0 - byteSum body]

/-- The image with one byte changed and its last byte mended, so that its sum is 0 again. -/
def withByte (i : Nat) (b : Byte) : List Byte :=
  let l := (imageOf 0).set i b
  l.set 255 (l.getD 255 0 - byteSum l)

/-- Every check of section 10.2 refuses an image of its own. -/
theorem test_image_checks : (imageOf 0).length = 256
    ∧ [imageOf 0, (imageOf 0).take 255, (imageOf 0).set 200 1, withByte 0 0xC3, withByte 7 0,
        withByte 34 0, withByte 130 3].map imageFault
      = [.none, .noImage, .checksum, .format, .range, .geometry, .window] := by decide +kernel

/-- The values of the image, as far as they are the test node's. -/
theorem test_image_values : (imageValues (imageOf 0)).watchSet = 0x30
    ∧ (imageValues (imageOf 0)).outlets.q1 = outletAt .deck 400
    ∧ (imageValues (imageOf 0)).windows.take 2 = tableWindows.take 2 := by decide +kernel

/-! ## States that meet the statements' hypotheses -/

theorem witness_StepTakesFrontCommand :
    { run with pending := [.encoderPulse, .zero []] }.pending = .encoderPulse :: [.zero []] := rfl

theorem witness_EmptyQueueIdles :
    State.reset.pending = [] ∧ State.reset.start.resetHeld = true
      ∧ run.pending = [] ∧ run.start.resetHeld = false ∧ dueEvents run = []
      ∧ dueEvents { run with position := { run.position with windowTimer := some 20 } }
        = [.speedWindowEnd]
      ∧ run.line.rate = .kbit125 ∧ run.line.msBits + 1 < 125
      ∧ run.line.receiver ≠ .off ∧ run.line.transmitter = .idle := by decide +kernel

/-- The node at 500 kbit/s one bit time before the end of a millisecond, its status timer running. -/
def lastBit : State :=
  { run with
    line := { run.line with rate := .kbit500, msBits := 499, idleCount := 254 }
    supervision := { run.supervision with statusTimer := some 7, statusPeriod := 100 } }

/-- The 500th bit time ends a millisecond (R107); the one before does not. -/
theorem test_bits_of_a_millisecond :
    dueEvents lastBit = []
      ∧ (passBit lastBit).supervision.statusTimer = some 8 ∧ (passBit lastBit).line.msBits = 0
      ∧ (passBit lastBit).line.idleCount = 255
      ∧ (passBit { lastBit with line := { lastBit.line with msBits := 498 } }).supervision.statusTimer
        = some 7 := by decide +kernel

theorem witness_EmptyQueueIdles_due :
    (∀ c, ¬EventDue run c)
      ∧ EventDue { run with position := { run.position with windowTimer := some 20 } } .speedWindowEnd := by
  refine ⟨fun c h => ?_, .speedWindowEnd ⟨20, rfl, by decide⟩⟩
  have hm : c ∈ dueEvents run := (mem_dueEvents _ _).2 ⟨rfl, h⟩
  have he : dueEvents run = [] := by decide +kernel
  rw [he] at hm
  cases hm

/-- A node with two bags on the belt, one offered, one resolving, a notice held and a command waiting. -/
def busy : State :=
  { at_ 1000 [{ bag 1 100 with trail := some 200, length := some 100, state := .exiting },
      bag 2 900] run with
    resolution := { run.resolution with
      service := some ⟨some ⟨4, 2⟩, .divert 0, none⟩, requests := [⟨4, 2⟩],
      exceptions := [⟨8112, .hold⟩, ⟨9203, .cancelled⟩] }
    line := { run.line with
      receiver := .body, buffer := [5, 30, 15, 0],
      notices := [⟨31, .crowd, [0, 0]⟩], transmitter := .waitGap ⟨.notices, ⟨31, .crowd, [0, 0]⟩, 0⟩ }
    position := { run.position with counter := 1000, stopped := false }
    pending := [.encoderPulse] }

theorem busy_bags : BagsKept busy := bagsKept_of _ rfl (by decide +kernel)

theorem witness_StepsKeepBags : RecordsKept busy ∧ BagsKept busy ∧ ∃ t, step busy = .next t :=
  ⟨⟨busy_bags, fun h => (by cases h), by unfold StatesAgree; decide +kernel,
    by unfold LapsAreMarked; decide +kernel, by decide, by decide⟩, busy_bags, _, rfl⟩

theorem witness_StepsKeepThePermit : PermitKept busy ∧ ∃ t, step busy = .next t :=
  ⟨⟨busy_bags, fun h => (by cases h), by unfold PermitFollowsConditions; decide +kernel⟩, _, rfl⟩

/-- The node with segment clear held. -/
def clearing : State :=
  { run with start := { run.start with clearHeld := true }, pending := [.segmentClearRelease] }

theorem witness_ClearingNodeHoldsNoBag : ClearingEmpty clearing ∧ clearing.start.node = .run
    ∧ clearing.start.clearHeld = true ∧ ∃ t, step clearing = .next t :=
  ⟨⟨fun h => (by cases h), fun _ _ => ⟨rfl, rfl, rfl⟩⟩, rfl, rfl, _, rfl⟩

theorem witness_StepsKeepRequests : RequestsKept busy ∧ ∃ t, step busy = .next t :=
  ⟨⟨busy_bags, by decide +kernel, by decide +kernel, fun h => (by cases h)⟩, _, rfl⟩

theorem witness_StepsKeepTheLine : LineKept busy ∧ ∃ t, step busy = .next t := by
  refine ⟨⟨fun h => (by cases h), fun h => (by cases h), ⟨?_, ?_, ?_, ?_⟩, ?_, ?_⟩, _, rfl⟩
  · intro h e
    cases e
    decide
  · constructor
    · intro e
      cases e
    · rintro ⟨h, e, k⟩
      cases e
      cases k
  · intro h len count e
    cases e
  · intro h e k
    cases e
    cases k
  · exact fun _ => ⟨by decide, by decide, fun n e => by cases e; decide⟩
  · exact fun h => absurd rfl h

theorem witness_DistanceIsSigned :
    (8388607 = ((8388607 : Position).toNat + 16777216 - (0 : Position).toNat) % 16777216)
      ∧ 8388608 = ((0 : Position).toNat + 16777216 - (8388608 : Position).toNat) % 16777216 := by
  decide

/-- The node with queues of given lengths. -/
def queues (answers notices : Nat) : State :=
  { run with
    line := { run.line with
      answers := List.replicate answers ⟨30, .status, []⟩
      notices := List.replicate notices ⟨31, .crowd, [0, 0]⟩ } }

theorem witness_FullQueuesDropFrames :
    (queues 3 7).line.answers.length < 4 ∧ (queues 3 7).line.notices.length < 8
      ∧ 4 ≤ (queues 4 8).line.answers.length ∧ 8 ≤ (queues 4 8).line.notices.length := by decide

/-- The node with an EXITING record whose offer is in a stage. -/
def offering (stage : OfferStage) (s : State) : State :=
  { at_ 1500 [{ bag 1 100 with
      trail := some 600, length := some 500, state := .exiting, heldOffer := true,
      pastOfferPoint := true, verdict := .pass }] s with
    handoff := { s.handoff with outbound := some ⟨⟨4, 1⟩, stage, 1⟩ } }

theorem witness_ArbiterServesInTurn :
    (queues 1 0).line.receiver ≠ .off ∧ (queues 1 0).line.transmitter = .idle
      ∧ (queues 1 0).line.answers = ⟨30, .status, []⟩ :: []
      ∧ (queues 0 1).line.answers = [] ∧ (queues 0 1).line.notices = ⟨31, .crowd, [0, 0]⟩ :: []
      ∧ (queues 0 1).line.turn = .offer ∧ offerFrame (queues 0 1) = none
      ∧ (setStatusDue .due run).supervision.statusDue = .due
      ∧ (setStatusDue .due run).line.notices = [] ∧ (offerFrame (offering .due run)).isSome = true
      ∧ (offering .due run).line.turn = .offer
      ∧ (let s := setTransmitter (.waitGap ⟨.status, ⟨31, .status, []⟩, 0⟩) (queues 1 0);
        s.line.receiver ≠ .off ∧ s.line.transmitter = .waitGap ⟨.status, ⟨31, .status, []⟩, 0⟩
          ∧ s.line.answers = ⟨30, .status, []⟩ :: []) := by decide +kernel

theorem witness_FramesGoOutSoundAndGood :
    validStation 30 = true ∧ (31 : Nat) ≤ 31 ∧ (zeroAnswer 31 .spurn [1]).payload.length ∈ kindLengths .spurn
      ∧ frameBytes 30 (zeroAnswer 31 .spurn [1]) = 31 :: [30, 4, 3, 0, 0, 1, 7] := by decide

/-- A record with every carried field at the end of its range. -/
def fullRecord : Record :=
  { bag 2047 0 with
    ref := ⟨30, 2047⟩, tag := some ⟨19999, 7, .coded⟩, length := some 65535, laps := 7,
    stray := some .oversize, lengthDoubt := true, relabelled := true,
    refusals := [⟨1, .full⟩, ⟨30, .pushMiss⟩, ⟨2, .gap⟩, ⟨3, .busy⟩] }

theorem witness_OfferCarriesTheRecord : Carryable fullRecord := by
  refine ⟨by decide, by decide, by decide, ?_, ?_, by decide, by decide⟩
  · intro t e
    cases e
    decide
  · intro n e
    cases e
    decide

/-- The eighteen bytes of that record's OFFER, written out from section 7.2. -/
theorem test_offer_bytes : offerPayload fullRecord
    = [0xF7, 0xFF, 0x4E, 0x1F, 23, 0xC7, 7, 0xFF, 0xFF, 4, 1, 1, 30, 8, 2, 6, 3, 5] := by decide

/-- The next node reads back what an OFFER carries, at both ends of the fields' ranges. -/
theorem test_offer_round_trip : decodeOffer (offerPayload fullRecord) = some (carried fullRecord)
    ∧ decodeOffer (offerPayload (newRecord ⟨1, 0⟩ 0 none none))
      = some (carried (newRecord ⟨1, 0⟩ 0 none none)) := by decide +kernel

/-- The receiver takes a sent frame for what it is, and a damaged check for a bad frame. -/
theorem test_frame_round_trip :
    testFrame 5 (bodyOf 4 5 .offer (offerPayload fullRecord))
      = some ⟨5, 4, .offer, offerPayload fullRecord⟩
      ∧ testFrame 5 [30, 15, 0, 0x14] = some ⟨5, 30, .zero, []⟩
      ∧ testFrame 5 [30, 15, 0, 0x15] = none ∧ testFrame 5 [0, 15, 0, 10] = none := by decide +kernel

/-- The next state of a command. -/
def after (c : Instr) (s : State) : State :=
  match exec c s with
  | .next t => t
  | _ => s

/-- Body characters sent singly, one after another. -/
def sentSingly (bytes : List Byte) (s : State) : State :=
  bytes.foldl (fun t b => after (.frameHead (charOf b false)) t) s

/-- A ZERO frame sent character by character is answered at its check byte and leaves the buffer empty
(R110, R172). -/
theorem test_frame_by_characters :
    (sentSingly [30, 15, 0] (inFrame 5 run)).line.buffer = [5, 30, 15, 0]
      ∧ sentSingly [30, 15, 0, 0x14] (inFrame 5 run) = after (.zero [30, 15, 0, 0x14]) (inFrame 5 run)
      ∧ after (.zero [0, 0x14]) (sentSingly [30, 15] (inFrame 5 run))
        = after (.zero [30, 15, 0, 0x14]) (inFrame 5 run)
      ∧ (sentSingly [30, 15, 0, 0x14] (inFrame 5 run)).line.answers = [⟨30, .take, [0, 0]⟩] := by
  decide +kernel

/-- Thirty-one body bytes behind a length byte of 28 fill the buffer, and the next overruns it (R110). -/
theorem test_thirty_third_byte :
    let s := sentSingly ([4, 1, 28] ++ List.replicate 28 0) (inFrame 5 run)
    s.line.buffer.length = 32 ∧ s.supervision.counters.get .overruns = 0
      ∧ (sentSingly [0] s).supervision.counters.get .overruns = 1
      ∧ (sentSingly [0] s).line.receiver = .hunt ∧ (sentSingly [0] s).line.buffer = [] := by
  decide +kernel

theorem witness_ResetAndItsRelease :
    State.reset.start.resetHeld = true ∧ (1 ≤ (1#5).toNat ∧ (30#5).toNat ≤ 30)
      ∧ (0#5).toNat = 0 ∧ (31#5).toNat = 31 := by decide

theorem witness_ImageChecksDecideInOrder :
    imageFault (imageOf 0) = .none
      ∧ ((imageOf 0).take 255).length < 256 ∧ byteSum (((imageOf 0).set 200 1).take 256) ≠ 0
      ∧ byteSum ((withByte 0 0xC3).take 256) = 0 ∧ (withByte 0 0xC3).getD 0 0 ≠ 0xC4
      ∧ byteSum ((withByte 7 0).take 256) = 0 ∧ (withByte 7 0).getD 0 0 = 0xC4
      ∧ rangeOk (withByte 7 0) = false := by decide +kernel

/-- The ranges of section 10.3 hold of an image that only a later check refuses. -/
theorem witness_ImageChecksDecideInOrder_ranges :
    (∀ img ∈ [imageOf 0, withByte 34 0, withByte 130 3],
      256 ≤ img.length ∧ byteSum (img.take 256) = 0 ∧ img.getD 0 0 = 0xC4
        ∧ ImageRanges (fun i => (img.getD i 0).toNat)
          (fun i => (img.getD i 0).toNat * 256 + (img.getD (i + 1) 0).toNat))
      ∧ [imageOf 0, withByte 34 0, withByte 130 3].map imageFault = [.none, .geometry, .window] := by
  refine ⟨?_, by decide +kernel⟩
  intro img h
  simp only [List.mem_cons, List.not_mem_nil, or_false] at h
  unfold ImageRanges
  rcases h with rfl | rfl | rfl
  all_goals and_intros
  all_goals decide +kernel

/-- The node at the end of START. -/
def starting : State :=
  { run with start := { run.start with node := .start }, line := State.reset.line }

theorem witness_StartEndsInRunOrFault :
    starting.start.resetHeld = false ∧ starting.start.node = .start
      ∧ starting.start.clearHeld = false ∧ imageFault (imageOf 0) = .none
      ∧ imageFault (withByte 7 0) ≠ .none ∧ 256 ≤ (withByte 7 0).length
      ∧ rateOfDivide (imageByte (withByte 7 0) 1) = some .kbit500
      ∧ imageFault ((imageOf 0).take 255) ≠ .none ∧ ((imageOf 0).take 255).length < 256 := by
  decide +kernel

theorem witness_StartEndsInRunOrFault_clearing :
    let s := { starting with start := { starting.start with clearHeld := true } }
    let f := { faulted with pending := [.zero []] }
    (s.start.resetHeld = false ∧ s.start.node = .start ∧ s.start.clearHeld = true
      ∧ heldRecords s = [] ∧ s.handoff.outbound = none ∧ s.supervision.crowded = false)
      ∧ f.start.node = .fault ∧ f.start.resetHeld = false
      ∧ f.pending.head? ≠ some .powerUpReset ∧ ∃ t, step f = .next t :=
  ⟨by decide, rfl, rfl, by decide, _, rfl⟩

theorem witness_PulseAdvancesTheBelt :
    run.start.resetHeld = false ∧ { run with pending := [.zero []] }.pending.head? ≠ some .encoderPulse
      ∧ { run with pending := [.zero []] }.pending.head? ≠ some .powerUpReset
      ∧ ∃ t, step { run with pending := [.zero []] } = .next t := ⟨rfl, by decide, by decide, _, rfl⟩

theorem witness_WindowEndMeasuresSpeed :
    run.start.resetHeld = false ∧ run.start.node = .run ∧ run.position.band = .slow
      ∧ starting.start.node ≠ .run := by decide

/-! ### Arrivals -/

theorem witness_AnonymousArrivalMakesRecord :
    BagsKept run ∧ run.start.node = .run ∧ run.start.clearHeld = false ∧ run.handoff.expected = []
      ∧ run.handoff.pendingOffers = [] ∧ run.track.table.length < 48
      ∧ 1 ≤ run.start.image.offerDistance ∧ run.start.image.offerDistance ≤ 65535 :=
  ⟨bagsKept_of _ rfl (by decide), by decide⟩

/-- The node with a record in the expected list and one in the pending-offer queue. -/
def inbound (expected pendingOffers : List Record) (s : State) : State :=
  { s with handoff := { s.handoff with expected, pendingOffers } }

/-- An EXPECTED record for deck outlet 1. -/
def expectedBag : Record :=
  { bag 107 0 with lead := none, state := .expected, verdict := .divert 1, deadline := some 400 }

/-- A READY entry of the pending-offer queue. -/
def readyBag : Record :=
  { bag 108 0 with lead := none, state := .pending, ready := true, discardTimer := some 3 }

theorem witness_ArrivalPromotesHeldRecord :
    let s := inbound [expectedBag] [readyBag] run
    BagsKept s ∧ s.start.node = .run ∧ s.start.clearHeld = false ∧ s.track.table.length < 48
      ∧ s.handoff.expected.head? = some expectedBag
      ∧ (inbound [] [readyBag] run).handoff.expected = []
      ∧ (inbound [] [readyBag] run).handoff.pendingOffers.head? = some readyBag
      ∧ 1 ≤ s.start.image.offerDistance ∧ s.start.image.offerDistance ≤ 65535
      ∧ s.start.image.armDistance ≤ 65535 ∧ (∀ k, (s.start.image.outlets.get k).distance ≤ 65535)
      ∧ s.track.openMerge ≠ some expectedBag.ref
      ∧ false = (verdictOutlet expectedBag.verdict).any (fun k =>
        decide ((s.start.image.outlets.get k).distance ≤ s.start.image.armDistance)) :=
  ⟨bagsKept_of _ rfl (by decide), by decide⟩

/-- A node with an image value changed. -/
def withImage (f : NodeConfig → NodeConfig) (s : State) : State :=
  { s with start := { s.start with image := f s.start.image } }

/-- The record's outlet lies at the arming distance: it is armed at its arrival. -/
theorem witness_ArrivalPromotesHeldRecord_armed :
    let s := withImage (fun c => { c with armDistance := 400 }) (inbound [expectedBag] [] run)
    BagsKept s ∧ s.start.node = .run ∧ s.handoff.expected.head? = some expectedBag
      ∧ s.start.image.armDistance ≤ 65535 ∧ (∀ k, (s.start.image.outlets.get k).distance ≤ 65535)
      ∧ true = (verdictOutlet expectedBag.verdict).any (fun k =>
        decide ((s.start.image.outlets.get k).distance ≤ s.start.image.armDistance)) :=
  ⟨bagsKept_of _ rfl (by decide), by decide⟩

theorem witness_ArrivalPromotesHeldRecord_duplicate :
    let s := at_ 100 [bag 9 50] (inbound [] [readyBag] run)
    BagsKept s ∧ s.start.node = .run ∧ s.start.clearHeld = false ∧ s.track.table.length < 48
      ∧ s.handoff.expected = [] ∧ s.handoff.pendingOffers.head? = some readyBag
      ∧ true = (decide (s.handoff.expected = []) && s.track.table.any (twin readyBag.tag))
      ∧ false = (verdictOutlet readyBag.verdict).any (fun k =>
        decide ((s.start.image.outlets.get k).distance ≤ s.start.image.armDistance)) :=
  ⟨bagsKept_of _ rfl (by decide), by decide⟩

/-- The node with a full track table. -/
def fullTable : State := at_ 100 ((List.range 48).map fun n => bag n 90) run

theorem witness_FullTableLeavesBagsUntracked :
    BagsKept (inbound [expectedBag] [readyBag] fullTable)
      ∧ fullTable.start.node = .run ∧ fullTable.start.clearHeld = false
      ∧ fullTable.start.image.induction = true ∧ 48 ≤ fullTable.track.table.length := by
  refine ⟨bagsKept_of _ rfl ?_, by decide +kernel⟩
  decide +kernel

/-- The node with one bag in the eye, its carried length 100, at a position. -/
def inEye (p : Position) (r : Record) : State :=
  { at_ p [r] run with
    track := { run.track with table := [r], openEntry := some r.ref, openMerge := some r.ref } }

/-- A record with a carried length. -/
def carriedBag : Record := { bag 3 1000 with length := some 100 }

theorem witness_TrailingEdgesMeasure :
    let s := inEye 1111 carriedBag
    BagsKept s ∧ s.start.node = .run ∧ s.start.clearHeld = false ∧ s.start.image.induction = true
      ∧ s.track.openEntry = some carriedBag.ref ∧ s.track.openMerge = some carriedBag.ref
      ∧ inTable s carriedBag.ref = some carriedBag ∧ carriedBag.lead = some 1000
      ∧ carriedBag.state = .onBelt ∧ 0 ≤ Machine.dist 1000 s.position.counter
      ∧ 111 = min 65535 (Machine.dist 1000 s.position.counter).toNat
      ∧ 1 ≤ s.start.image.segmentLength ∧ s.start.image.segmentLength ≤ 65535
      ∧ (s.start.image.readerFitted = true → 1 ≤ s.start.image.readerDistance
        ∧ s.start.image.readerDistance ≤ 65535 ∧ s.start.image.readerLatency ≤ 65535)
      ∧ carriedBag.length = some 100 ∧ carriedBag.measuredHere = false
      ∧ s.start.image.tolerance * 100 < ((100 : Int) - 111).natAbs * 100
      ∧ ((100 : Int) - 110).natAbs * 100 ≤ s.start.image.tolerance * 100
      ∧ (1021 : Position) = s.position.counter - BitVec.ofNat 24 s.start.image.mergeDistance
      ∧ 0 ≤ Machine.dist 1000 1021 ∧ s.start.image.mergeDistance ≤ 65535 :=
  ⟨bagsKept_of _ rfl (by decide), by decide +kernel⟩

/-- An EXITING record at the merge eye, its exit one count ahead of its trailing edge and reached by it. -/
theorem witness_TrailingEdgesMeasure_exiting :
    let r := { carriedBag with state := .exiting }
    let s := fun m => withImage (fun c => { c with mergeDistance := m }) (inEye 2111 r)
    BagsKept (s 999) ∧ BagsKept (s 1000) ∧ (s 999).track.openMerge = some r.ref
      ∧ inTable (s 999) r.ref = some r ∧ inTable (s 1000) r.ref = some r ∧ r.lead = some 1000
      ∧ (999 : Nat) < (s 999).start.image.segmentLength ∧ (s 1000).start.image.segmentLength ≤ 1000
      ∧ (s 1000).start.image.segmentLength ≤ 65535 ∧ 0 ≤ Machine.dist 1000 (2111 - BitVec.ofNat 24 999) :=
  ⟨bagsKept_of _ rfl (by decide), bagsKept_of _ rfl (by decide), by decide +kernel⟩

/-- The induction node with a code waiting. -/
def withCode : State :=
  { at_ 1000 [bag 1 900, bag 2 950] run with
    induction := { run.induction with codes := [⟨12044, 2⟩] } }

theorem witness_MergePlacesByTravel :
    BagsKept withCode ∧ withCode.start.node = .run ∧ withCode.start.clearHeld = false
      ∧ withCode.start.image.induction = true ∧ withCode.track.table.length < 48
      ∧ 90 = withCode.start.image.mergeDistance ∧ (90 : Nat) ≤ 65535
      ∧ false = decide (withCode.start.image.offerDistance ≤ 90)
      ∧ withCode.start.image.offerDistance ≤ 65535 ∧ withCode.induction.codes = ⟨12044, 2⟩ :: []
      ∧ run.induction.codes = [] ∧ StatesAgree withCode :=
  ⟨bagsKept_of _ rfl (by decide), by unfold StatesAgree; decide⟩

/-- A code that a bag of the table and one of the expected list carry already. -/
theorem witness_MergePlacesByTravel_duplicate :
    let s := { inbound [expectedBag] [] withCode with
      induction := { run.induction with codes := [⟨8112, 1⟩] } }
    BagsKept s ∧ StatesAgree s ∧ s.start.node = .run ∧ s.induction.codes = ⟨8112, 1⟩ :: []
      ∧ true = (s.track.table ++ s.handoff.expected).any (twin (some ⟨8112, 1, .coded⟩)) :=
  ⟨bagsKept_of _ rfl (by decide), by unfold StatesAgree; decide, by decide⟩

/-- A merge distance at the offer distance, with the offer free and with it held. -/
theorem witness_MergePlacesByTravel_past :
    let s := withImage (fun c => { c with mergeDistance := 900 }) withCode
    let o := { s with handoff := { s.handoff with outbound := some ⟨⟨4, 1⟩, .resting 0, 1⟩ } }
    BagsKept s ∧ StatesAgree s ∧ BagsKept o ∧ StatesAgree o ∧ 900 = s.start.image.mergeDistance
      ∧ true = decide (s.start.image.offerDistance ≤ 900) ∧ s.handoff.outbound = none
      ∧ o.handoff.outbound ≠ none :=
  ⟨bagsKept_of _ rfl (by decide), by unfold StatesAgree; decide, bagsKept_of _ rfl (by decide),
    by unfold StatesAgree; decide, by decide⟩

/-! ### The reader and the resolution -/

/-- The node with a bag under the reader, its window open. -/
def underReader (r : Record) : State := at_ 300 [r, bag 20 250] run

/-- A bag under the reader, marked NOREAD before. -/
def openBag : Record :=
  { bag 4 50 with tag := none, stray := some .noread, window := .open, trail := some 60 }

theorem witness_ReadResultBindsTag :
    let s := underReader openBag
    BagsKept s ∧ s.start.node = .run ∧ s.start.image.readerFitted = true ∧ s.track.readerBytes = []
      ∧ 8112 = (0x1F : Byte).toNat * 256 + (0xB0 : Byte).toNat ∧ (1000 : Nat) ≤ 8112 ∧ 8112 ≤ 19999
      ∧ (1 : Byte).toNat ≤ 7 ∧ 0xA5 + 1 + 0x1F + 0xB0 + 1 + 0x8A = (0 : Byte)
      ∧ s.track.table.find? (fun x => decide (x.window = .open)) = some openBag
      ∧ true = decide (openBag.stray = none ∨ openBag.stray = some .noread
        ∨ openBag.stray = some .anon ∨ openBag.stray = some .doubt)
      ∧ true = (s.track.table ++ s.handoff.expected).any (fun x =>
        decide (x.ref ≠ openBag.ref ∧ x.tag.map (fun t => (t.cabin, t.letter)) = some (8112, 1)))
      ∧ StatesAgree s :=
  ⟨bagsKept_of _ rfl (by decide), by unfold StatesAgree; decide +kernel⟩

/-- A bag under the reader without tag or mark. -/
def plainBag : Record := { openBag with stray := none }

theorem witness_ReadWindowsOpenAndClose :
    let s := underReader plainBag
    BagsKept s ∧ s.start.node = .run ∧ s.start.image.readerFitted = true
      ∧ plainBag.window = .open ∧ s.track.readerBytes = []
      ∧ s.track.table.find? (fun x => decide (x.window = .open)) = some plainBag
      ∧ inTable s plainBag.ref = some plainBag ∧ plainBag.trail = some 60
      ∧ reached s (ahead 60 (s.start.image.readerDistance + s.start.image.readerLatency)) = true
      ∧ (let r := { plainBag with window := .notOpen };
        BagsKept (underReader r) ∧ inTable (underReader r) r.ref = some r ∧ r.lead = some 50
          ∧ reached (underReader r) (ahead 50 s.start.image.readerDistance) = true) :=
  ⟨bagsKept_of _ rfl (by decide), by decide, by decide, by decide, by decide, by decide, by decide,
    by decide, by decide, bagsKept_of _ rfl (by decide), by decide⟩

theorem witness_ReaderInputIsJudged :
    run.start.node = .run ∧ run.start.image.readerFitted = true ∧ run.track.readerBytes = []
      ∧ readerResult [0xA5, 1, 0x1F, 0xB0, 1, 0] = none
      ∧ run.track.table.any (fun x => decide (x.window = .open)) = false
      ∧ (setReader [0xA5] (some 5) run).track.readerBytes ≠ [] ∧ (0 : Byte) ≠ 0xA5 := by decide

/-- A message of its marker alone, cut by the gap, is one unbound read (R31). -/
theorem test_reader_gap : ∃ t u, exec (.readerMessage [0xA5]) run = .next t
    ∧ exec .readerGapTimeout t = .next u ∧ t.counter .unboundReads = 0
    ∧ u.counter .unboundReads = 1 ∧ u.track.readerBytes = [] := ⟨_, _, rfl, rfl, rfl, rfl, rfl⟩

theorem witness_WindowLookupGivesVerdict :
    run.start.image.windows = tableWindows.take 1 ++ ⟨9000, 9999, 1, none⟩ :: tableWindows.drop 2
      ∧ (∀ x ∈ tableWindows.take 1, ¬(x.base ≤ 9000 ∧ (9000 : Nat) ≤ x.limit))
      ∧ run.start.image.windows = tableWindows
      ∧ (∀ x ∈ tableWindows, ¬(x.base ≤ 11200 ∧ (11200 : Nat) ≤ x.limit)) := by decide

theorem witness_ResolutionGivesVerdict :
    (∀ k, (run.start.image.outlets.get k).role = .stray →
        (∀ j < k, (run.start.image.outlets.get j).role ≠ .stray) → Verdict.stray 3 = .stray k)
      ∧ ((∀ k, (run.start.image.outlets.get k).role ≠ .stray) → Verdict.stray 3 = .pass)
      ∧ openBag.stray ≠ none ∧ plainBag.stray = none ∧ plainBag.tag = none
      ∧ (bag 1 0).stray = none ∧ (bag 1 0).tag = some ⟨8112, 1, .read⟩
      ∧ exceptionFor run 8112 = none ∧ exceptionFor busy 8112 = some ⟨8112, .hold⟩ := by decide

theorem witness_CompletionWritesOrDiscards :
    (let r := { bag 2 900 with verdict := .unresolved };
      BagsKept busy ∧ busy.resolution.service = some ⟨some ⟨4, 2⟩, .divert 0, none⟩
        ∧ heldRecord busy r.ref = some r ∧ r.state = .onBelt ∧ r.verdictFixed = false
        ∧ armingReached busy { r with verdict := .divert 0 } = none
        ∧ ((inExpected busy r.ref).isSome = true ↔ r.state = .expected))
      ∧ (let s := { busy with track := { busy.track with
          table := [{ bag 2 900 with state := .armed, verdictFixed := true }] } };
        s.resolution.service = some ⟨some ⟨4, 2⟩, .divert 0, none⟩
          ∧ heldRecord s ⟨4, 2⟩ = some { bag 2 900 with state := .armed, verdictFixed := true }
          ∧ s.resolution.requests = ⟨4, 2⟩ :: []) :=
  ⟨⟨busy_bags, by decide +kernel⟩, by decide +kernel⟩

/-- The arming position of the record's new outlet is reached: arming follows its resolution at once. -/
theorem witness_CompletionWritesOrDiscards_armed :
    let r := { bag 2 500 with trail := some 600, length := some 100, verdict := .unresolved }
    let s := { busy with track := { busy.track with table := [r] } }
    BagsKept s ∧ s.start.node = .run ∧ s.resolution.service = some ⟨some ⟨4, 2⟩, .divert 0, none⟩
      ∧ inTable s r.ref = some r ∧ r.state = .onBelt ∧ r.verdictFixed = false
      ∧ armingReached s { r with verdict := .divert 0 } = some 0 :=
  ⟨bagsKept_of _ rfl (by decide +kernel), by decide +kernel⟩

/-- A CABIN frame's payload of two entries, each 8112 with kind HOLD and no target. -/
def cabinPayload : List Byte := [0x1F, 0xB0, 2, 0, 0, 0x1F, 0xB0, 2, 0, 0]

theorem witness_CabinEntriesAreStored_frame :
    let s := inFrame 31 run
    s.start.node = .run
      ∧ handedFrame s .cabin (bodyOf 28 31 .cabin cabinPayload) = some ⟨31, 28, .cabin, cabinPayload⟩
      ∧ (28 : Nat) = s.start.image.manifest
      ∧ handedFrame s .cabin (bodyOf 17 31 .cabin cabinPayload) = some ⟨31, 17, .cabin, cabinPayload⟩
      ∧ (17 : Nat) ≠ s.start.image.manifest
      ∧ s.resolution.cabinEntries ++ cabinEntriesOf cabinPayload = [⟨8112, 2, 0⟩, ⟨8112, 2, 0⟩]
      ∧ validCabin 8112 = true := by decide +kernel

/-- The node with CABIN entries to apply and two exceptions. -/
def applying (l : List CabinEntry) : State :=
  { busy with resolution := { busy.resolution with cabinEntries := l } }

theorem witness_CabinEntriesAreStored :
    let s := applying [⟨14022, 3, 9203⟩]
    BagsKept s ∧ s.start.node = .run ∧ s.resolution.cabinEntries = [⟨14022, 3, 9203⟩]
      ∧ (∃ w ∈ s.start.image.windows, (w.base ≤ 14022 ∧ 14022 ≤ w.limit)
        ∨ ((3 : Nat) = 3 ∧ w.base ≤ 9203 ∧ 9203 ≤ w.limit))
      ∧ s.resolution.exceptions.length < 256
      ∧ (applying [⟨8112, 1, 0⟩]).resolution.cabinEntries = [⟨8112, 1, 0⟩]
      ∧ (exceptionFor (applying [⟨8112, 1, 0⟩]) 8112).isSome = true
      ∧ (∃ w ∈ s.start.image.windows, w.base ≤ 8112 ∧ 8112 ≤ w.limit) :=
  ⟨bagsKept_of _ rfl (by decide +kernel), by decide +kernel⟩

/-- Entries that R46 refuses, each at the head, and the ends of the ranges beside them. -/
theorem witness_CabinEntriesAreStored_invalid :
    run.start.node = .run
      ∧ (applying [⟨999, 0, 0⟩]).resolution.cabinEntries = ⟨999, 0, 0⟩ :: [] ∧ (999 : Nat) < 1000
      ∧ (applying [⟨20000, 1, 0⟩]).resolution.cabinEntries = ⟨20000, 1, 0⟩ :: [] ∧ (19999 : Nat) < 20000
      ∧ (applying [⟨8112, 3, 999⟩]).resolution.cabinEntries = ⟨8112, 3, 999⟩ :: []
      ∧ [⟨8112, 4, 0⟩, ⟨999, 1, 0⟩, ⟨20000, 2, 0⟩, ⟨1000, 3, 19999⟩, ⟨19999, 0, 0⟩].map rowless
        = [true, true, true, false, false] := by decide +kernel

/-- An entry of kind REDIRECT to a cabin that does not exist is counted and changes nothing else; the
entries behind it that no command applies are counted with it (R46). -/
theorem test_invalid_entry :
    exec .cabinEntryRedirect (applying [⟨8112, 3, 20000⟩, ⟨8112, 4, 0⟩, ⟨8113, 2, 0⟩])
      = .next { applying [⟨8113, 2, 0⟩] with
        supervision := raised .droppedExceptions (raised .droppedExceptions run.supervision) } := rfl

theorem witness_ExceptionsAreRemovedOrDropped :
    let s := applying [⟨9203, 0, 0⟩]
    BagsKept s ∧ s.start.node = .run ∧ s.resolution.cabinEntries = [⟨9203, 0, 0⟩]
      ∧ (1000 : Nat) ≤ 9203 ∧ (9203 : Nat) ≤ 19999
      ∧ (exceptionFor s 9203).isSome = true ∧ exceptionFor (applying [⟨8113, 0, 0⟩]) 8113 = none
      ∧ (∀ w ∈ s.start.image.windows, ¬(w.base ≤ 11207 ∧ 11207 ≤ w.limit))
      ∧ (∀ w ∈ s.start.image.windows, ¬(w.base ≤ 19999 ∧ 19999 ≤ w.limit)) :=
  ⟨bagsKept_of _ rfl (by decide +kernel), by decide +kernel⟩

theorem witness_ExceptionsAreRemovedOrDropped_full :
    let s := fun e => { run with
      resolution := { run.resolution with
        cabinEntries := [e]
        exceptions := (List.range 256).map fun n => ⟨1000 + n, .hold⟩ } }
    ∀ e ∈ [CabinEntry.mk 8112 1 0, ⟨8112, 2, 0⟩, ⟨14022, 3, 9203⟩],
      (s e).start.node = .run ∧ (s e).resolution.cabinEntries = [e]
        ∧ exceptionFor (s e) e.cabin = none ∧ 256 ≤ (s e).resolution.exceptions.length
        ∧ ∃ w ∈ (s e).start.image.windows, (w.base ≤ e.cabin ∧ e.cabin ≤ w.limit)
          ∨ (e.kind = 3 ∧ w.base ≤ e.target ∧ e.target ≤ w.limit) := by decide +kernel

/-! ### Outlets -/

/-- A bag of 100 counts at the arming position of deck outlet 1. -/
def armingBag : Record :=
  { bag 5 1000 with trail := some 1100, length := some 100, verdict := .divert 1 }

/-- The node with that bag, a bag behind whose leading edge is at a position, and a cart at each outlet. -/
def atOutlet (r : Record) (p behindLead : Position) : State :=
  { at_ p [r, bag 6 behindLead] run with
    outlets := Quad.all { Outlet.reset with cartPresent := true } }

theorem witness_ArmingRefusesLongAndClose :
    (let s := atOutlet armingBag 1300 1109;
      BagsKept s ∧ s.start.node = .run ∧ inTable s armingBag.ref = some armingBag
        ∧ armingBag.lead = some 1000 ∧ armingReached s armingBag = some 1
        ∧ 10 = minGap s.start.image s.position.band ∧ armingBag.trail = some 1100
        ∧ armingBag.length = some 100 ∧ 100 ≤ (s.start.image.outlets.get 1).maxLength
        ∧ followingIn s.track.table armingBag.ref = some (bag 6 1109)
        ∧ (bag 6 1109).lead = some 1109 ∧ Machine.dist 1100 1109 < (10 : Int))
      ∧ (let r := { armingBag with trail := some 1121, length := some 121 };
        armingReached (atOutlet r 1300 1200) r = some 1
          ∧ (run.start.image.outlets.get 1).maxLength < 121)
      ∧ (let r := { armingBag with trail := none, length := none };
        armingReached (atOutlet r 1300 1200) r = some 1 ∧ r.trail = none) :=
  ⟨⟨bagsKept_of _ rfl (by decide), by decide +kernel⟩, by decide +kernel⟩

theorem witness_ArmingSetsFirePosition :
    let s := atOutlet armingBag 1300 1110
    BagsKept s ∧ s.start.node = .run ∧ inTable s armingBag.ref = some armingBag
      ∧ armingReached s armingBag = some 1 ∧ 100 ≤ (s.start.image.outlets.get 1).maxLength
      ∧ precedingIn s.track.table armingBag.ref = none
      ∧ followingIn s.track.table armingBag.ref = some (bag 6 1110)
      ∧ (10 : Int) ≤ Machine.dist 1100 1110
      ∧ 0 = leadTime (s.start.image.outlets.get 1) s.position.band * s.position.speed
      ∧ (0 : Nat) = min s.start.image.armDistance (0 / 80 + if 0 % 80 = 0 then 0 else 1)
      ∧ (1450 : Position) = 1000 + BitVec.ofNat 24 (400 + 100 / 2) - BitVec.ofNat 24 0
      ∧ Machine.dist 1450 1300 < 0 ∧ Machine.dist 1450 (atOutlet armingBag 1450 1110).position.counter = 0
      ∧ armingReached (atOutlet armingBag 1450 1110) armingBag = some 1
      ∧ armingReached (atOutlet armingBag 1451 1110) armingBag = some 1
      ∧ 0 < Machine.dist 1450 (atOutlet armingBag 1451 1110).position.counter :=
  ⟨bagsKept_of _ rfl (by decide), by decide +kernel⟩

/-- The same bag, armed. -/
def armedBag : Record :=
  { armingBag with state := .armed, verdictFixed := true, firePosition := some 1450 }

theorem witness_FireExtendsOrRefuses :
    let s := atOutlet armedBag 1450 1200
    BagsKept s ∧ s.start.node = .run ∧ inTable s armedBag.ref = some armedBag
      ∧ armedBag.state = .armed ∧ verdictOutlet armedBag.verdict = some 1
      ∧ armedBag.firePosition = some 1450 ∧ reached s 1450 = true
      ∧ (s.start.image.outlets.get 1).role ≠ .unused
      ∧ (s.outlets.get 1).fill < (s.start.image.outlets.get 1).capacity
      ∧ (s.outlets.get 1).holdSwitch = false ∧ (s.outlets.get 1).lineHold = false
      ∧ (s.outlets.get 1).cartPresent = true ∧ (s.outlets.get 1).faulted = false
      ∧ (s.outlets.get 1).pusher = .home
      ∧ (let full := s.mapOutlet 1 fun o => { o with fill := 5 };
        BagsKept full ∧ (s.start.image.outlets.get 1).capacity ≤ (full.outlets.get 1).fill) :=
  ⟨bagsKept_of _ rfl (by decide), by decide +kernel, by decide, by decide, by decide, by decide,
    by decide, by decide, by decide, by decide, by decide, by decide, by decide, by decide,
    bagsKept_of _ rfl (by decide), by decide⟩

theorem witness_OutletInputsAndTimers :
    let s := run.mapOutlet 2 fun o => { o with pusher := .extended, dwellTimer := some 30 }
    let u := run.mapOutlet 2 fun o => { o with pusher := .retracting, homeTimer := some 40 }
    s.start.node = .run ∧ (s.start.image.outlets.get 2).role ≠ .unused
      ∧ (s.outlets.get 2).pusher = .extended ∧ (s.outlets.get 2).dwellTimer = some 30
      ∧ (u.outlets.get 2).pusher = .retracting ∧ (u.outlets.get 2).homeTimer = some 40
      ∧ s.start.resetHeld = false ∧ faulted.start.node ≠ .run := by decide

/-- The node with a bag on its way into the chute of outlet 3. -/
def diverting : State :=
  let r := { armedBag with state := .diverting, verdict := .stray 3, confirmTimer := some 7 }
  (at_ 1500 [r] run).mapOutlet 3 fun o => { o with diverting := [r.ref], fill := 254 }

theorem witness_ChuteEntriesDeliver :
    BagsKept diverting ∧ diverting.start.node = .run
      ∧ (diverting.start.image.outlets.get 3).role ≠ .unused
      ∧ (diverting.outlets.get 3).diverting = ⟨4, 5⟩ :: []
      ∧ (inTable diverting ⟨4, 5⟩).isSome = true
      ∧ diverting.supervision.crowded = false ∧ diverting.line.notices.length < 8
      ∧ (diverting.outlets.get 1).diverting = []
      ∧ (let s := run.mapOutlet 3 fun o => { o with fill := 254 };
        (s.outlets.get 3).diverting = [] ∧ (s.outlets.get 3).fill = 254) :=
  ⟨bagsKept_of _ rfl (by decide), by decide +kernel⟩

/-- The seventeen bytes of a STRAY notice, written out from R101, of a record without refusals and of one
with four. -/
theorem witness_ChuteEntriesDeliver_payload :
    StrayPayloadOf { armedBag with stray := some .duplicate, laps := 2 }
        [0x20, 5, 0x1F, 0xB0, 9, 5, 2, 0, 0, 0, 0, 0, 0, 0, 0, 0, 0]
      ∧ StrayPayloadOf fullRecord
        [0xF7, 0xFF, 0x4E, 0x1F, 23, 8, 7, 1, 4, 1, 1, 30, 8, 2, 6, 3, 5] := by
  constructor
  all_goals unfold StrayPayloadOf TagPlaces RefusalPlaces strayCauses
  all_goals refine ⟨by decide, by decide, by decide, fun n c k => ?_, by decide, by decide, by decide,
    fun i hi e h => ⟨?_, fun n c k => ?_⟩, by decide⟩
  all_goals try rcases i with _ | _ | _ | _ | i
  all_goals try omega
  all_goals try cases h
  all_goals try decide
  all_goals rcases n with _ | _ | _ | _ | _ | _ | _ | _ | n
  all_goals cases k
  all_goals decide

theorem witness_ConfirmTimeoutIsPushMiss :
    let r := { armedBag with state := .diverting, verdict := .stray 3, confirmTimer := some 7 }
    BagsKept diverting ∧ diverting.start.node = .run ∧ inTable diverting r.ref = some r
      ∧ r.state = .diverting ∧ r.confirmTimer = some 7 ∧ r.trail = some 1100
      ∧ ¬(r.pastOfferPoint = true ∧ ∃ p, r.trail = some p
        ∧ reached diverting (ahead p diverting.start.image.segmentLength) = true) :=
  ⟨bagsKept_of _ rfl (by decide), by decide +kernel, by decide +kernel, by decide, by decide, by decide,
    fun h => by cases h.1⟩

/-- A DIVERTING record past its offer point whose exit is reached. -/
theorem witness_ConfirmTimeoutIsPushMiss_gone :
    let r := { armedBag with
      state := .diverting, verdict := .stray 3, confirmTimer := some 7, pastOfferPoint := true }
    let s := { at_ 2100 [r] run with outlets := diverting.outlets }
    BagsKept s ∧ s.start.node = .run ∧ inTable s r.ref = some r ∧ r.state = .diverting
      ∧ r.confirmTimer = some 7 ∧ r.pastOfferPoint = true ∧ r.trail = some 1100
      ∧ reached s (ahead 1100 s.start.image.segmentLength) = true :=
  ⟨bagsKept_of _ rfl (by decide), by decide +kernel⟩

/-! ### Handoff -/

theorem witness_OfferPointAndSegmentExit :
    let r := { bag 1 100 with verdict := .pass, trail := some 200, length := some 100 }
    let s := at_ 1000 [r] run
    let e := { r with state := .exiting }
    let u := at_ 1200 [e] run
    (BagsKept s ∧ s.start.node = .run ∧ inTable s r.ref = some r ∧ offerPointReached s r = true
      ∧ r.trail = some 200 ∧ reached s (ahead 200 s.start.image.segmentLength) = false
      ∧ r.state = .onBelt ∧ s.handoff.outbound = none)
      ∧ (BagsKept u ∧ inTable u e.ref = some e ∧ e.state = .exiting ∧ e.trail = some 200
        ∧ reached u (ahead 200 u.start.image.segmentLength) = true) :=
  ⟨⟨bagsKept_of _ rfl (by decide), by decide +kernel⟩, bagsKept_of _ rfl (by decide),
    by decide +kernel⟩

/-- The exit of the record that holds the offer, with another EXITING record behind it, the exit of that
other record, an ON-BELT bag whose exit has been reached with its offer point, and a DIVERTING one. -/
theorem witness_OfferPointAndSegmentExit_offer :
    let r := { bag 1 100 with trail := some 200, state := .exiting, heldOffer := true }
    let q := { bag 2 300 with trail := some 400, state := .exiting }
    let b := { bag 3 100 with trail := some 200, verdict := .pass }
    let d := { bag 3 100 with trail := some 200, verdict := .divert 0, state := .diverting }
    let s := { at_ 1400 [r, q] run with
      handoff := { run.handoff with outbound := some ⟨r.ref, .resting 0, 1⟩ } }
    (BagsKept s ∧ inTable s r.ref = some r ∧ inTable s q.ref = some q
      ∧ reached s (ahead 200 s.start.image.segmentLength) = true
      ∧ reached s (ahead 400 s.start.image.segmentLength) = true
      ∧ s.handoff.outbound = some ⟨r.ref, .resting 0, 1⟩ ∧ r.ref ≠ q.ref)
      ∧ (BagsKept (at_ 1200 [b] run) ∧ inTable (at_ 1200 [b] run) b.ref = some b ∧ b.state = .onBelt
        ∧ offerPointReached (at_ 1200 [b] run) b = true ∧ b.trail = some 200
        ∧ reached (at_ 1200 [b] run) (ahead 200 run.start.image.segmentLength) = true)
      ∧ BagsKept (at_ 1200 [d] run) ∧ inTable (at_ 1200 [d] run) d.ref = some d ∧ d.state ≠ .onBelt
        ∧ offerPointReached (at_ 1200 [d] run) d = true :=
  ⟨⟨bagsKept_of _ rfl (by decide), by decide +kernel⟩,
    ⟨bagsKept_of _ rfl (by decide), by decide +kernel⟩, bagsKept_of _ rfl (by decide), by decide +kernel⟩

/-- An answer from a station to this node about bag 4-1. -/
def answer (k : FrameKind) (source : Nat) (reason : List Byte) : List Byte :=
  bodyOf source 5 k ([0x20, 0x01] ++ reason)

theorem witness_AttemptsRestOrAreSpent :
    let s := inFrame 5 (offering (.listening 1) run)
    s.handoff.outbound = some ⟨⟨4, 1⟩, .listening 1, 1⟩
      ∧ OfferStage.resting 0 = (if 1 < s.start.image.attemptLimit then .resting 0 else .spent)
      ∧ (offering (.resting 5) run).handoff.outbound = some ⟨⟨4, 1⟩, .resting 5, 1⟩
      ∧ s.start.node = .run
      ∧ handedFrame s .wait (answer .wait 8 []) = some ⟨5, 8, .wait, [0x20, 0x01]⟩
      ∧ (8 : Nat) = s.start.image.downstream ∧ payloadRef [0x20, 0x01] = ⟨4, 1⟩ := by decide +kernel

theorem witness_AnswersHandTheRecordOver :
    let s := inFrame 5 (offering (.listening 1) run)
    BagsKept s ∧ s.start.node = .run
      ∧ handedFrame s .take (answer .take 8 []) = some ⟨5, 8, .take, [0x20, 0x01]⟩
      ∧ handedFrame s .spurn (answer .spurn 8 [1]) = some ⟨5, 8, .spurn, [0x20, 0x01, 1]⟩
      ∧ s.handoff.outbound = some ⟨⟨4, 1⟩, .listening 1, 1⟩
      ∧ payloadRef [0x20, 0x01, 1] = ⟨4, 1⟩ ∧ OfferStage.listening 1 ≠ .spent
      ∧ (inTable s ⟨4, 1⟩).map (·.stray) = some none :=
  ⟨bagsKept_of _ rfl (by decide), by decide +kernel⟩

/-- An OFFER on line for a stray-bound record, its frame waiting for its gap. -/
def offeringStray : State :=
  let s := inFrame 5 (offering .onLine run)
  { s with
    track := { s.track with table := s.track.table.map fun r => { r with stray := some .noread } }
    line := { s.line with transmitter := .waitGap ⟨.offer, ⟨8, .offer, []⟩, 0⟩ } }

theorem witness_SpurnedAndLateAnswers :
    LineAgrees offeringStray ∧ offeringStray.start.node = .run
      ∧ handedFrame offeringStray .spurn (answer .spurn 8 [1]) = some ⟨5, 8, .spurn, [0x20, 0x01, 1]⟩
      ∧ offeringStray.handoff.outbound = some ⟨⟨4, 1⟩, .onLine, 1⟩
      ∧ (inTable offeringStray ⟨4, 1⟩).map (·.stray) = some (some .noread)
      ∧ handedFrame (inFrame 5 run) .take (answer .take 9 []) = some ⟨5, 9, .take, [0x20, 0x01]⟩
      ∧ (9 : Nat) ≠ run.start.image.downstream ∧ run.handoff.outbound = none := by
  refine ⟨⟨?_, ?_, ?_, ?_⟩, by decide +kernel⟩
  · intro h e
    cases e
    decide
  · constructor
    · intro e
      cases e
    · rintro ⟨h, e, k⟩
      cases e
      cases k
  · intro h len count e
    cases e
  · intro h e k c
    rfl

/-- The OFFER frame of that node is one that is withdrawn when its offer ends, in WAIT-GAP and in BACKOFF,
and one of an offer already spent is told by its bag ref. -/
theorem witness_OfferFrameWaits :
    OfferFrameWaits offeringStray
      ∧ OfferFrameWaits (setTransmitter (.backoff ⟨.offer, ⟨8, .offer, []⟩, 1⟩ 168 3) offeringStray)
      ∧ OfferFrameWaits (setTransmitter (.backoff ⟨.offer, ⟨8, .offer, refBytes ⟨4, 1⟩⟩, 1⟩ 168 3)
        (offering .spent run))
      ∧ ¬OfferFrameWaits run :=
  ⟨⟨_, _, rfl, rfl, .inl rfl, .inl rfl⟩, ⟨_, _, rfl, rfl, .inl rfl, .inr ⟨_, _, rfl⟩⟩,
    ⟨_, _, rfl, rfl, .inr ⟨rfl, by decide⟩, .inr ⟨_, _, rfl⟩⟩, fun ⟨_, _, h, _⟩ => by cases h⟩

/-- A SPURN spends the offer while its frame is being sent; the frame collides, and leaves with its record's
exit (R134). -/
theorem test_spent_frame_withdrawn :
    let s := setTransmitter (.backoff ⟨.offer, ⟨8, .offer, refBytes ⟨4, 1⟩⟩, 1⟩ 168 3)
      { offering .spent run with position := { run.position with counter := 1600 } }
    ∃ t, exec (.segmentExit ⟨4, 1⟩) s = .next t ∧ t.line.transmitter = .idle ∧ t.track.table = [] :=
  ⟨_, rfl, by decide +kernel⟩

/-- An OFFER's payload for bag 4-108, cabin 8112, letter 1, tag READ. -/
def offerOf : List Byte := offerPayload readyBag

theorem witness_NewOfferEntersQueue :
    let s := inFrame 5 run
    BagsKept s ∧ s.start.node = .run ∧ s.start.clearHeld = false
      ∧ handedFrame s .offer (bodyOf 4 5 .offer offerOf) = some ⟨5, 4, .offer, offerOf⟩
      ∧ decodeOffer offerOf = some (carried readyBag) ∧ heldRecord s readyBag.ref = none
      ∧ s.handoff.pendingOffers.length < 4 ∧ s.line.answers.length < 4 :=
  ⟨bagsKept_of _ rfl (by decide), by decide +kernel⟩

theorem witness_RepeatedOfferIsTaken :
    let s := inFrame 5 (inbound [] [readyBag] run)
    BagsKept s ∧ s.start.node = .run
      ∧ handedFrame s .offer (bodyOf 4 5 .offer offerOf) = some ⟨5, 4, .offer, offerOf⟩
      ∧ decodeOffer offerOf = some (carried readyBag)
      ∧ inPendingOffers s readyBag.ref = some readyBag ∧ readyBag.ready = true
      ∧ s.handoff.expected.length < 8 ∧ s.line.answers.length < 4 ∧ StatesAgree s :=
  ⟨bagsKept_of _ rfl (by decide), by unfold StatesAgree; decide +kernel⟩

/-- The same, with two records that carry the offered tag. -/
theorem witness_RepeatedOfferIsTaken_duplicate :
    let s := inFrame 5 (at_ 100 [bag 9 50] (inbound [expectedBag] [readyBag] run))
    BagsKept s ∧ StatesAgree s
      ∧ handedFrame s .offer (bodyOf 4 5 .offer offerOf) = some ⟨5, 4, .offer, offerOf⟩
      ∧ inPendingOffers s readyBag.ref = some readyBag
      ∧ true = (s.track.table ++ s.handoff.expected).any (twin (carried readyBag).tag) :=
  ⟨bagsKept_of _ rfl (by decide), by unfold StatesAgree; decide +kernel⟩

theorem witness_OffersThatWaitOrEnterNothing :
    let r := { readyBag with ready := false, discardTimer := none }
    let s := inFrame 5 (inbound [] [r] run)
    let full := inFrame 5 (inbound ((List.range 8).map fun n => { expectedBag with ref := ⟨4, n⟩ })
      [readyBag] run)
    let four := inFrame 5 (inbound [] ((List.range 4).map fun n => { readyBag with ref := ⟨4, n⟩ })
      run)
    (BagsKept s ∧ s.start.node = .run
      ∧ handedFrame s .offer (bodyOf 4 5 .offer offerOf) = some ⟨5, 4, .offer, offerOf⟩
      ∧ inPendingOffers s r.ref = some r ∧ r.ready = false ∧ s.line.answers.length < 4)
      ∧ (BagsKept full ∧ inPendingOffers full readyBag.ref = some readyBag
        ∧ 8 ≤ full.handoff.expected.length)
      ∧ (handedFrame (inFrame 31 run) .offer (bodyOf 4 31 .offer offerOf)
          = some ⟨31, 4, .offer, offerOf⟩
        ∧ decodeOffer (List.replicate 18 0) = none
        ∧ (inExpected (inbound [readyBag] [] run) readyBag.ref).isSome = true
        ∧ heldRecord four readyBag.ref = none ∧ 4 ≤ four.handoff.pendingOffers.length) :=
  ⟨⟨bagsKept_of _ rfl (by decide), by decide +kernel⟩,
    ⟨bagsKept_of _ rfl (by decide), by decide +kernel⟩, by decide +kernel⟩

theorem witness_InboundRecordsTimeOut :
    let s := at_ 400 [] (inbound [expectedBag, { expectedBag with ref := ⟨4, 9⟩, deadline := some 401 }]
      [readyBag] run)
    BagsKept s ∧ s.start.node = .run ∧ inPendingOffers s readyBag.ref = some readyBag
      ∧ readyBag.ready = true ∧ readyBag.discardTimer = some 3 ∧ s.handoff.outbound = none
      ∧ s.handoff.expected.head? = some expectedBag ∧ expectedBag.deadline = some 400
      ∧ reached s 400 = true ∧ s.line.notices.length < 8 ∧ reached s 401 = false :=
  ⟨bagsKept_of _ rfl (by decide), by decide +kernel⟩

/-! ### Induction and supervision -/

theorem witness_CodesAreTakenByCase :
    let s := inFrame 5 run
    s.start.node = .run
      ∧ handedFrame s .code (bodyOf 29 5 .code [0x2F, 0x0C, 2]) = some ⟨5, 29, .code, [0x2F, 0x0C, 2]⟩
      ∧ (12044 : Nat) = payloadByte [0x2F, 0x0C, 2] 0 * 256 + payloadByte [0x2F, 0x0C, 2] 1
      ∧ (29 : Nat) = s.start.image.coding ∧ s.start.image.induction = true
      ∧ s.induction.codes.length < 8
      ∧ handedFrame s .code (bodyOf 17 5 .code [0x2F, 0x0C, 8]) = some ⟨5, 17, .code, [0x2F, 0x0C, 8]⟩
      ∧ (7 : Nat) < payloadByte [0x2F, 0x0C, 8] 2 := by decide +kernel

/-- The node watching stations 4 and 5. -/
def watching : State :=
  { run with induction := { run.induction with
      crowdView := [⟨4, true, false, 3000⟩, ⟨5, false, false, 0⟩] } }

theorem witness_CrowdViewFollowsStations :
    let s := inFrame 31 watching
    s.start.node = .run
      ∧ handedFrame s .crowd (bodyOf 4 31 .crowd [1, 40]) = some ⟨31, 4, .crowd, [1, 40]⟩
      ∧ (∃ e ∈ s.induction.crowdView, e.station = 4)
      ∧ handedFrame s .status (bodyOf 4 31 .status (statusPayload run))
        = some ⟨31, 4, .status, statusPayload run⟩
      ∧ payloadByte (statusPayload run) 7 = 0
      ∧ handedFrame s .crowd (bodyOf 4 31 .crowd [0, 49]) = some ⟨31, 4, .crowd, [0, 49]⟩
      ∧ handedFrame s .crowd (bodyOf 6 31 .crowd [1, 48]) = some ⟨31, 6, .crowd, [1, 48]⟩
      ∧ (∀ e ∈ s.induction.crowdView, e.station ≠ 6)
      ∧ (4 : Nat) ≠ s.start.station
      ∧ (∃ e ∈ s.induction.crowdView, e.station = 4 ∧ e.silent = false
        ∧ s.start.image.silenceTimeout * 1000 ≤ e.age) := by decide +kernel

/-- A frame taken first leaves the entry's age at 0, and the expiry behind it finds nothing (R162). -/
theorem test_frame_before_silence :
    ∃ t, exec (.crowdReceived (bodyOf 4 31 .crowd [0, 3])) (inFrame 31 watching) = .next t
      ∧ (∀ e ∈ t.induction.crowdView, e.age < t.start.image.silenceTimeout * 1000)
      ∧ exec (.silenceTimeout 4) t = .next t := ⟨_, rfl, by decide +kernel, by rfl⟩

theorem witness_StatusFallsDueAndCarriesNode :
    let s := { run with supervision := { run.supervision with statusTimer := some 100 } }
    s.start.resetHeld = false ∧ s.supervision.statusTimer = some 100 ∧ run.start.node ≠ .fault
      ∧ (run.start.image.outlets.get 0).role = .deck ∧ (run.start.image.outlets.get 3).role = .stray
      ∧ faulted.start.node = .fault := by decide

/-- A frame of the supervisory station to this node. -/
def command (k : FrameKind) (p : List Byte) : List Byte := bodyOf 30 5 k p

theorem witness_AsksAreAnswered :
    let s := inFrame 5 run
    s.start.node = .run ∧ handedFrame s .ask (command .ask [0]) = some ⟨5, 30, .ask, [0]⟩
      ∧ handedFrame s .ask (command .ask [1]) = some ⟨5, 30, .ask, [1]⟩
      ∧ handedFrame s .ask (command .ask [4]) = some ⟨5, 30, .ask, [4]⟩
      ∧ (30 : Nat) = s.start.image.supervisory := by decide +kernel

theorem witness_HoldChangesLineBits :
    let s := inFrame 5 run
    s.start.node = .run ∧ (30 : Nat) = s.start.image.supervisory
      ∧ handedFrame s .hold (command .hold [0, 0xF0]) = some ⟨5, 30, .hold, [0, 0xF0]⟩
      ∧ handedFrame s .hold (command .hold [1, 15]) = some ⟨5, 30, .hold, [1, 15]⟩
      ∧ handedFrame s .hold (command .hold [2, 15]) = some ⟨5, 30, .hold, [2, 15]⟩
      ∧ handedFrame s .hold (command .hold [3, 6]) = some ⟨5, 30, .hold, [3, 6]⟩
      ∧ (15 : Byte).toNat < 16
      ∧ (∀ k : OutletNo, true = ((s.outlets.get k).lineHold || (15 : Byte).getLsbD k)) := by
  decide +kernel

theorem witness_ZeroClearsCounters :
    let s := inFrame 5 run
    s.start.node = .run ∧ handedFrame s .zero (command .zero []) = some ⟨5, 30, .zero, []⟩
      ∧ (30 : Nat) = s.start.image.supervisory
      ∧ handedFrame (inFrame 5 (queues 4 0)) .zero (command .zero []) = some ⟨5, 30, .zero, []⟩
      ∧ 4 ≤ (inFrame 5 (queues 4 0)).line.answers.length := by decide +kernel

theorem witness_CommandsAreRefused :
    let s := inFrame 5 run
    s.start.node = .run
      ∧ handedFrame s .zero (bodyOf 17 5 .zero []) = some ⟨5, 17, .zero, []⟩
      ∧ (17 : Nat) ≠ s.start.image.supervisory
      ∧ handedFrame (inFrame 31 run) .zero (bodyOf 30 31 .zero []) = some ⟨31, 30, .zero, []⟩
      ∧ handedFrame s .ask (command .ask [5]) = some ⟨5, 30, .ask, [5]⟩
      ∧ (4 : Nat) < payloadByte [5] 0
      ∧ handedFrame s .hold (command .hold [4, 0]) = some ⟨5, 30, .hold, [4, 0]⟩
      ∧ (3 : Nat) < payloadByte [4, 0] 0
      ∧ handedFrame s .hold (command .hold [1, 16]) = some ⟨5, 30, .hold, [1, 16]⟩
      ∧ 16 ≤ ([1, 16] : List Byte).getD 1 0 := by decide +kernel

theorem witness_FaultedNodeAnswers :
    let s := inFrame 5 faulted
    s.start.node = .fault ∧ s.start.station ≠ 31
      ∧ handedFrame s .offer (bodyOf 4 5 .offer offerOf) = some ⟨5, 4, .offer, offerOf⟩
      ∧ handedFrame s .code (bodyOf 29 5 .code [0, 0, 0]) = some ⟨5, 29, .code, [0, 0, 0]⟩
      ∧ handedFrame s .ask (bodyOf 17 5 .ask [0]) = some ⟨5, 17, .ask, [0]⟩
      ∧ handedFrame s .ask (bodyOf 17 5 .ask [4]) = some ⟨5, 17, .ask, [4]⟩
      ∧ handedFrame s .ask (bodyOf 17 5 .ask [5]) = some ⟨5, 17, .ask, [5]⟩
      ∧ (5 : Nat) = s.start.station
      ∧ handedFrame (inFrame 31 faulted) .ask (bodyOf 17 31 .ask [0])
        = some ⟨31, 17, .ask, [0]⟩ := by decide +kernel

/-! ### The line and segment clear -/

theorem witness_HeadsBeginFramesAndTestsEndThem :
    run.line.receiver ≠ .off ∧ (charOf 5 true).mark = true ∧ charSound (charOf 5 true) = true
      ∧ (5 : Byte).toNat = run.start.station ∧ (31 : Byte).toNat = 31
      ∧ charSound (charOf 31 true) = true ∧ (6 : Byte).toNat < 32
      ∧ (6 : Byte).toNat ≠ run.start.station ∧ charSound (charOf 6 true) = true
      ∧ 32 ≤ (32 : Byte).toNat ∧ charSound (charOf 32 true) = true
      ∧ (inFrame 5 run).line.receiver = .body
      ∧ (charOf 9 false).mark = false ∧ charSound (charOf 9 false) = true
      ∧ run.line.receiver = .hunt
      ∧ ([0, 0] : List Byte).length = (2 : Byte).toNat := by decide

/-- The node in BODY with these bytes of a frame in its buffer. -/
def holding (bytes : List Byte) (s : State) : State :=
  { s with line := { s.line with receiver := .body, buffer := bytes } }

theorem witness_BodyCharacters :
    let long := holding ([5, 30, 15, 28] ++ List.replicate 28 0) run
    let part := holding ([5, 30, 15, 28] ++ List.replicate 27 0) run
    let zero := holding [5, 30, 15, 0] run
    let bad := holding ([5, 30, 15, 27] ++ List.replicate 27 0) run
    part.line.buffer.length = 31 ∧ (part.line.buffer ++ [0])[3]? = some 28
      ∧ part.line.buffer.length ≠ (28 : Byte).toNat + 4
      ∧ long.line.receiver = .body ∧ long.line.buffer.length = 32
      ∧ bad.line.buffer.head? = some 5 ∧ (bad.line.buffer ++ [0])[3]? = some 27
      ∧ bad.line.buffer.length = (27 : Byte).toNat + 4
      ∧ testFrame 5 (bad.line.buffer.tail ++ [0]) = none
      ∧ zero.start.node ≠ .start ∧ goodFrame zero [0x14] = some ⟨5, 30, .zero, []⟩
      ∧ goodFrame (holding [5, 30, 15] run) [0, 0x14] = some ⟨5, 30, .zero, []⟩
      ∧ goodFrame (holding [31, 30, 11, 2, 0, 0] faulted) [8] = some ⟨31, 30, .hold, [0, 0]⟩ := by
  decide +kernel

theorem witness_FramesThatEndWithoutAction :
    let s := inFrame 5 run
    s.line.receiver ≠ .off ∧ (⟨0, false, true, true⟩ : LineChar).stopOk = true
      ∧ parityHolds ⟨0, false, true, true⟩ = false ∧ headInProgress s = some 5
      ∧ bodyOverruns (bodyWith s ([4, 1, 28] ++ List.replicate 29 0)) = true
      ∧ bodyOverruns (bodyWith (holding [5, 4, 1] run) (28 :: List.replicate 29 0)) = true
      ∧ bodyEnds (bodyWith s [4, 15, 0, 0]) = true ∧ testFrame 5 (bodyWith s [4, 15, 0, 0]) = none
      ∧ bodyEnds (bodyWith (holding [5, 4, 15] run) [0, 0]) = true
      ∧ goodFrame s (bodyOf 5 5 .zero []) = some ⟨5, 5, .zero, []⟩ ∧ (5 : Nat) = s.start.station
      ∧ goodFrame s (bodyOf 4 5 .counts (countsPayload run 1))
        = some ⟨5, 4, .counts, countsPayload run 1⟩
      ∧ goodFrame (inFrame 31 faulted) (bodyOf 30 31 .hold [0, 0]) = some ⟨31, 30, .hold, [0, 0]⟩
      ∧ faulted.start.node = .fault := by decide +kernel

/-- The node sending the OFFER of its outstanding offer, having met some collisions. -/
def sendingOffer (n : Nat) : State :=
  setTransmitter (.sending ⟨.offer, ⟨8, .offer, []⟩, n⟩) (offering .onLine run)

/-- The gap of 24 bit times of an OFFER frame, and that of 6 of an answer, at their ends (R115). -/
theorem test_gaps :
    let s := { offeringStray with line := { offeringStray.line with idleCount := 23 } }
    let a := setTransmitter (.waitGap ⟨.answer, ⟨8, .take, []⟩, 0⟩) run
    .gapReached ∉ dueEvents s
      ∧ .gapReached ∈ dueEvents { s with line := { s.line with idleCount := 24 } }
      ∧ .gapReached ∉ dueEvents { a with line := { a.line with idleCount := 5 } }
      ∧ .gapReached ∈ dueEvents { a with line := { a.line with idleCount := 6 } } := by decide +kernel

/-- A back-off of 24 idle bit times on a line idle for as long is followed by the frame itself (R115,
R117). -/
theorem test_backoff_sends :
    let s := setTransmitter (.backoff ⟨.status, ⟨31, .status, []⟩, 1⟩ 24 24)
      { run with line := { run.line with idleCount := 24 } }
    ∃ t, exec .backoffEnd s = .next t ∧ t.line.transmitter = .sending ⟨.status, ⟨31, .status, []⟩, 1⟩
      ∧ t.line.idleCount = 0 := ⟨_, rfl, by decide⟩

/-- Section 6.7: node 8 backs off for 48. After 24 idle bit times its back-off count is 24 of 48; a
character of node 7's frame stops it there; after 24 idle bit times more it is 48, the idle count is 24,
and the frame is sent. A command that comes at 24 of 48 lets the other 24 pass. -/
theorem test_backoff_interrupted :
    let h : HeldFrame := ⟨.notices, ⟨31, .crowd, [1, 40]⟩, 1⟩
    let u := idleBits 24 (setTransmitter (.backoff h 48 0) run).line
    let v := idleBits 24 { u with idleCount := 0 }
    u.transmitter = .backoff h 48 24 ∧ v.transmitter = .backoff h 48 48 ∧ v.idleCount = 24
      ∧ (after .backoffEnd { run with line := v }).line.transmitter = .sending h
      ∧ (after .backoffEnd { run with line := u }).line.transmitter = .sending h
      ∧ (after .backoffEnd { run with line := { u with transmitter := .backoff h 48 47, idleCount := 0 } })
        = { run with line := { u with transmitter := .waitGap h, idleCount := 1 } } := by decide +kernel

theorem witness_SentFramesLeaveTheirSource :
    offeringStray.line.transmitter = .waitGap ⟨.offer, ⟨8, .offer, []⟩, 0⟩
      ∧ offeringStray.start.resetHeld = false
      ∧ (sendingOffer 0).line.transmitter = .sending ⟨.offer, ⟨8, .offer, []⟩, 0⟩
      ∧ (sendingOffer 0).handoff.outbound = some ⟨⟨4, 1⟩, .onLine, 1⟩
      ∧ run.handoff.outbound = none := by decide

theorem witness_CollisionsBackOff :
    run.start.node ≠ .fault ∧ faulted.start.node = .fault
      ∧ (setTransmitter (.sending ⟨.status, ⟨31, .status, []⟩, 15⟩) faulted).line.transmitter
        = .sending ⟨.status, ⟨31, .status, []⟩, 15⟩
      ∧ (sendingOffer 14).line.transmitter = .sending ⟨.offer, ⟨8, .offer, []⟩, 14⟩ ∧ 15 < 16
      ∧ (sendingOffer 15).line.transmitter = .sending ⟨.offer, ⟨8, .offer, []⟩, 15⟩ ∧ 16 ≤ 16
      ∧ (sendingOffer 15).handoff.outbound = some ⟨⟨4, 1⟩, .onLine, 1⟩
      ∧ (setTransmitter (.backoff ⟨.status, ⟨31, .status, []⟩, 1⟩ 168 168) run).line.transmitter
        = .backoff ⟨.status, ⟨31, .status, []⟩, 1⟩ 168 168
      ∧ (168 : Nat) ≤ 168 ∧ (167 : Nat) < 168 := by decide

theorem witness_SegmentClearEmptiesAndReleases :
    busy.start.resetHeld = false ∧ busy.start.node = .run ∧ busy.start.clearHeld = false
      ∧ offeringStray.start.resetHeld = false ∧ offeringStray.start.node = .run
      ∧ offeringStray.start.clearHeld = false := by decide
end Sys2Proof.Tests
end

/-! # The distance between two positions (section 1.2) -/

namespace Sys2Proof.Machine

/-- `b - a` modulo 16,777,216, spelled as R3 does. -/
theorem position_sub_toNat (a b : Position) :
    (b - a).toNat = (b.toNat + 16777216 - a.toNat) % 16777216 := by
  have ha : a.toNat < 16777216 := a.isLt
  rw [BitVec.toNat_sub]
  omega

/-- The first half of R3: a value below 8,388,608 counts forward. -/
theorem dist_of_forward {a b : Position} (h : (b - a).toNat ≤ 8388607) :
    dist a b = (b - a).toNat :=
  BitVec.toInt_eq_toNat_of_lt (by omega)

/-- The second half of R3: a value of 8,388,608 or more stands 16,777,216 too high. -/
theorem dist_of_backward {a b : Position} (h : 8388608 ≤ (b - a).toNat) :
    dist a b = ((b - a).toNat : Int) - 16777216 := by
  have hmsb : ¬ 2 * (b - a).toNat < 2 ^ 24 := by omega
  rw [dist, BitVec.toInt_eq_toNat_cond, if_neg hmsb]
  norm_num

/-- Settles O9: the two halves of R3, at the difference read without a sign. -/
theorem distanceIsSigned : Obligations.DistanceIsSigned := by
  intro a b d hd
  rw [← position_sub_toNat] at hd
  subst hd
  exact ⟨dist_of_forward, dist_of_backward⟩

end Sys2Proof.Machine

/-! # The window lookup and its verdict (R42, R43) -/

namespace Sys2Proof.Machine

section
variable {ws : List Window} {w : Window} {c : Nat}

/-- A window that does not cover the cabin, off or on, is passed over. -/
theorem windowLookup_cons_of_not_covers (h : ¬(w.base ≤ c ∧ c ≤ w.limit)) :
    windowLookup (w :: ws) c = windowLookup ws c := by
  have hoff : ¬(w.base ≤ w.limit ∧ w.base ≤ c ∧ c ≤ w.limit) := fun hw => h hw.2
  simp [windowLookup, hoff]

/-- A window that covers the cabin is on, so the lookup stops at it. -/
theorem find?_cons_of_covers (hb : w.base ≤ c) (hl : c ≤ w.limit) :
    (w :: ws).find? (fun x => decide (x.base ≤ x.limit ∧ x.base ≤ c ∧ c ≤ x.limit)) = some w :=
  List.find?_cons_of_pos (decide_eq_true ⟨hb.trans hl, hb, hl⟩)

theorem windowLookup_cons_of_no_carve (hb : w.base ≤ c) (hl : c ≤ w.limit) (hw : w.carve = none) :
    windowLookup (w :: ws) c = some w.outlet := by
  simp only [windowLookup, find?_cons_of_covers hb hl, hw]

theorem windowLookup_cons_of_carve {v : CarveOut} (hb : w.base ≤ c) (hl : c ≤ w.limit)
    (hw : w.carve = some v) :
    windowLookup (w :: ws) c =
      some (if v.low ≤ c % 100 ∧ c % 100 ≤ v.high then v.outlet else w.outlet) := by
  simp only [windowLookup, find?_cons_of_covers hb hl, hw]
  exact (apply_ite some _ _ _).symm

/-- The windows are tried in order: those in front that do not cover the cabin do not matter. -/
theorem windowLookup_append_of_not_covers {front : List Window}
    (h : ∀ x ∈ front, ¬(x.base ≤ c ∧ c ≤ x.limit)) :
    windowLookup (front ++ ws) c = windowLookup ws c := by
  induction front with
  | nil => rfl
  | cons x front ih =>
    rw [List.forall_mem_cons] at h
    rw [List.cons_append, windowLookup_cons_of_not_covers h.1, ih h.2]

theorem windowLookup_eq_none_of_not_covers (h : ∀ x ∈ ws, ¬(x.base ≤ c ∧ c ≤ x.limit)) :
    windowLookup ws c = none :=
  calc windowLookup ws c
    _ = windowLookup (ws ++ []) c := by rw [List.append_nil]
    _ = windowLookup [] c := windowLookup_append_of_not_covers h
    _ = none := rfl

end

section
variable {s : State} {c : Nat}

theorem lookupVerdict_of_lookup_some {k : OutletNo}
    (h : windowLookup s.start.image.windows c = some k) :
    lookupVerdict s c = if (s.start.image.outlets.get k).role = .deck then .divert k else .pass := by
  rw [lookupVerdict, State.image, h]
  rfl

theorem lookupVerdict_of_lookup_none (h : windowLookup s.start.image.windows c = none) :
    lookupVerdict s c = .pass := by
  rw [lookupVerdict, State.image, h]

end

/-- Settles O28: the windows in front are passed over, and the first that covers the cabin answers with
its own outlet or its carve-out's; the verdict follows from the outlet found. -/
theorem windowLookupGivesVerdict : Obligations.WindowLookupGivesVerdict := by
  intro s front ws w c found hfront hfound
  constructor
  · intro hws hb hl
    have hlookup : windowLookup s.start.image.windows c = some found := by
      rw [hws, windowLookup_append_of_not_covers hfront, hfound]
      cases hw : w.carve with
      | none => exact windowLookup_cons_of_no_carve hb hl hw
      | some v => exact windowLookup_cons_of_carve hb hl hw
    exact ⟨hlookup, lookupVerdict_of_lookup_some hlookup⟩
  · intro hws
    have hlookup : windowLookup s.start.image.windows c = none :=
      hws ▸ windowLookup_eq_none_of_not_covers hfront
    exact ⟨hlookup, lookupVerdict_of_lookup_none hlookup⟩

end Sys2Proof.Machine

/-! # ZERO, the answer queue and the arbiter (R172, R120, R122) -/

namespace Sys2Proof.Machine

@[simp] theorem Counters_get_allZero (c : Counter) : Counters.allZero.get c = 0 := by
  cases c with
  | delivered k => exact Quad_get_all 0 k
  | _ => rfl

theorem zeroCounters_counter (s : State) (c : Counter) : (zeroCounters s).counter c = 0 :=
  Counters_get_allZero c

theorem arbiterOnly_arbitrate (s : State) : ArbiterOnly s (arbitrate s) := by
  unfold arbitrate
  split
  · exact arbiterOnly_refl s
  · dsimp only
    split
    · exact arbiterOnly_trans (arbiterOnly_takeBack s) (arbiterOnly_handOver _)
    · exact arbiterOnly_takeBack s

section
variable {s t : State}

theorem answers_of_arbiterOnly (h : ArbiterOnly s t) : t.line.answers = s.line.answers :=
  congrArg (·.line.answers) h.1

theorem counter_of_arbiterOnly (h : ArbiterOnly s t) (c : Counter) : t.counter c = s.counter c :=
  congrArg (·.counter c) h.1

theorem flags_of_arbiterOnly (h : ArbiterOnly s t) : t.supervision.flags = s.supervision.flags :=
  congrArg (·.supervision.flags) h.1

end

/-- A full answer queue outside FAULT drops the answer: the drop is counted and QUEUE DROP set (R120). -/
theorem queueAnswer_of_full {s : State} (f : OutFrame) (hfull : 4 ≤ s.line.answers.length)
    (hnode : s.start.node ≠ .fault) :
    queueAnswer f s = setQueueDrop (bump .droppedNotices s) := by
  have hroom : ¬ s.line.answers.length < Config.answerCapacity := Nat.not_lt.mpr hfull
  rw [queueAnswer, if_neg hroom, bumpOutsideFault, if_neg hnode]

theorem setQueueDrop_counter (s : State) (c : Counter) :
    (setQueueDrop s).counter c = s.counter c := rfl

theorem setQueueDrop_queueDrop (s : State) : (setQueueDrop s).supervision.flags.queueDrop = true :=
  rfl

theorem bump_counter_same (c : Counter) (s : State) :
    (bump c s).counter c = nextCount (s.counter c) := by
  rw [State.counter, bump_supervision, raised_get_same, State.counter]

/-- A command to this station from the supervisory one, and not malformed, is carried out (R169). -/
theorem takeCommand_of_supervisory {s : State} {f : InFrame} (act : State → State)
    (hdest : f.dest ≠ 31) (hsource : f.source = s.start.image.supervisory) :
    takeCommand f false act s = act s := by
  have hbroadcast : f.dest ≠ Config.broadcast := hdest
  simp [takeCommand, hbroadcast, hsource]

/-- ZERO from the supervisory station in RUN is carried out (R169, R172). -/
theorem exec_zero_of_supervisory {s : State} {body : List Byte} {f : InFrame}
    (hrun : s.start.node = .run) (hf : handedFrame s .zero body = some f) (hdest : f.dest ≠ 31)
    (hsource : f.source = s.start.image.supervisory) :
    exec (.zero body) s =
      .next (arbitrate (queueAnswer ⟨f.source, .take, [0, 0]⟩ (zeroCounters (frameOver s)))) := by
  have hexec : exec (.zero body) s = execZero body s := rfl
  have hin : inRun s = true := decide_eq_true hrun
  have htake := takeCommand_of_supervisory (s := endFrame s)
    (fun u => arbitrate (queueAnswer (zeroAnswer f.source .take []) (zeroCounters u))) hdest hsource
  simp only [hexec, execZero, hf, hin, if_true, htake]
  rfl

/-- What the drop of ZERO's own answer leaves: the counters are clear before it, so it is the one drop
counted (R120, R172). -/
theorem arbitrate_queueAnswer_zeroCounters_of_full {s : State} (f : OutFrame)
    (hfull : 4 ≤ s.line.answers.length) (hnode : s.start.node ≠ .fault) :
    let t := arbitrate (queueAnswer f (zeroCounters s))
    t.line.answers = s.line.answers ∧ t.counter .droppedNotices = 1
      ∧ t.supervision.flags.queueDrop = true := by
  have harb := arbiterOnly_arbitrate (queueAnswer f (zeroCounters s))
  have hdrop : queueAnswer f (zeroCounters s) =
      setQueueDrop (bump .droppedNotices (zeroCounters s)) :=
    queueAnswer_of_full f (by simpa using hfull) (by simpa using hnode)
  refine ⟨?_, ?_, ?_⟩
  · rw [answers_of_arbiterOnly harb, hdrop]
    simp
  · rw [counter_of_arbiterOnly harb, hdrop, setQueueDrop_counter, bump_counter_same,
      zeroCounters_counter]
    rfl
  · rw [flags_of_arbiterOnly harb, hdrop, setQueueDrop_queueDrop]

/-- Settles O53: ZERO hands its answer over after `zeroCounters`, so a drop of that answer is counted
from 0. -/
theorem zeroClearsCounters : Obligations.ZeroClearsCounters := by
  intro s body f hrun hf hdest hsource
  have hexec := exec_zero_of_supervisory hrun hf hdest hsource
  refine ⟨zeroCounters (frameOver s), hexec, zeroCounters_counter _, rfl, fun hfull t ht => ?_⟩
  rw [hexec] at ht
  cases ht
  have hnode : (frameOver s).start.node ≠ .fault := by simp [frameOver, hrun]
  exact arbitrate_queueAnswer_zeroCounters_of_full _ (s := frameOver s) hfull hnode

end Sys2Proof.Machine

/-! # Records found in the collections -/

namespace Sys2Proof.Machine

section
variable {s t : State} {ref other : BagRef} {r x : Record} {f : Record → Record}

theorem findIn_isSome {l : List Record} : (findIn l ref).isSome = true ↔ ref ∈ l.map (·.ref) := by
  rw [← not_iff_not, ← findIn_eq_none, Option.not_isSome_iff_eq_none]

/-- Where bag refs are held once, a record is the one found under its bag ref. -/
theorem findIn_of_mem {l : List Record} (hnodup : (l.map (·.ref)).Nodup) (hx : x ∈ l) :
    findIn l x.ref = some x := by
  obtain ⟨y, hy⟩ := Option.isSome_iff_exists.mp (findIn_isSome.mpr (List.mem_map_of_mem hx))
  rw [hy, List.inj_on_of_nodup_map hnodup (findIn_mem hy) hx (findIn_ref hy)]

theorem inTable_mem (h : inTable s ref = some r) : r ∈ s.track.table := findIn_mem h

theorem inTable_ref (h : inTable s ref = some r) : r.ref = ref := findIn_ref h

theorem inPendingOffers_mem (h : inPendingOffers s ref = some r) : r ∈ s.handoff.pendingOffers :=
  findIn_mem h

theorem inPendingOffers_ref (h : inPendingOffers s ref = some r) : r.ref = ref := findIn_ref h

theorem inExpected_mem (h : inExpected s ref = some r) : r ∈ s.handoff.expected := findIn_mem h

theorem mem_heldRecords :
    x ∈ heldRecords s ↔
      x ∈ s.track.table ∨ x ∈ s.handoff.pendingOffers ∨ x ∈ s.handoff.expected := by
  simp [heldRecords]

/-- `RefsHeldOnce` collection by collection. -/
theorem refsHeldOnce_iff :
    RefsHeldOnce s ↔
      (s.track.table.map (·.ref)).Nodup ∧ (s.handoff.pendingOffers.map (·.ref)).Nodup
        ∧ (s.handoff.expected.map (·.ref)).Nodup
        ∧ (∀ x ∈ s.track.table, ∀ y ∈ s.handoff.pendingOffers, x.ref ≠ y.ref)
        ∧ (∀ x ∈ s.track.table, ∀ y ∈ s.handoff.expected, x.ref ≠ y.ref)
        ∧ ∀ x ∈ s.handoff.pendingOffers, ∀ y ∈ s.handoff.expected, x.ref ≠ y.ref := by
  simp only [RefsHeldOnce, heldRecords, List.map_append, List.nodup_append, List.mem_append,
    List.mem_map]
  constructor
  · rintro ⟨⟨ht, hp, htp⟩, he, htpe⟩
    exact ⟨ht, hp, he, fun x hx y hy => htp _ ⟨x, hx, rfl⟩ _ ⟨y, hy, rfl⟩,
      fun x hx y hy => htpe _ (.inl ⟨x, hx, rfl⟩) _ ⟨y, hy, rfl⟩,
      fun x hx y hy => htpe _ (.inr ⟨x, hx, rfl⟩) _ ⟨y, hy, rfl⟩⟩
  · rintro ⟨ht, hp, he, htp, hte, hpe⟩
    refine ⟨⟨ht, hp, ?_⟩, he, ?_⟩
    · rintro _ ⟨x, hx, rfl⟩ _ ⟨y, hy, rfl⟩
      exact htp x hx y hy
    · rintro _ (⟨x, hx, rfl⟩ | ⟨x, hx, rfl⟩) _ ⟨y, hy, rfl⟩
      · exact hte x hx y hy
      · exact hpe x hx y hy

theorem heldRecord_of_inTable (h : inTable s ref = some r) : heldRecord s ref = some r := by
  simp [heldRecord, h]

theorem heldRecord_eq_none :
    heldRecord s ref = none ↔
      inTable s ref = none ∧ inPendingOffers s ref = none ∧ inExpected s ref = none := by
  unfold heldRecord
  cases inTable s ref <;> cases inPendingOffers s ref <;> simp

theorem heldRecord_eq_none_iff_forall :
    heldRecord s ref = none ↔ ∀ x ∈ heldRecords s, x.ref ≠ ref := by
  simp only [heldRecord_eq_none, inTable, inPendingOffers, inExpected, findIn_eq_none, List.mem_map,
    mem_heldRecords]
  constructor
  · rintro ⟨ht, hp, he⟩ x (hx | hx | hx) hxr
    · exact ht ⟨x, hx, hxr⟩
    · exact hp ⟨x, hx, hxr⟩
    · exact he ⟨x, hx, hxr⟩
  · intro h
    refine ⟨?_, ?_, ?_⟩ <;> rintro ⟨x, hx, hxr⟩ <;> exact h x (by simp [hx]) hxr

theorem heldRecord_mem (h : heldRecord s ref = some r) : r ∈ heldRecords s := by
  unfold heldRecord at h
  rw [mem_heldRecords]
  split at h
  · cases h; exact .inl (inTable_mem ‹_›)
  · split at h
    · cases h; exact .inr (.inl (inPendingOffers_mem ‹_›))
    · exact .inr (.inr (inExpected_mem h))

theorem heldRecord_ref (h : heldRecord s ref = some r) : r.ref = ref := by
  unfold heldRecord at h
  split at h
  · cases h; exact inTable_ref ‹_›
  · split at h
    · cases h; exact inPendingOffers_ref ‹_›
    · exact findIn_ref h

/-- Where bag refs are held once, a held record is the one found under its bag ref. -/
theorem heldRecord_of_mem (hrefs : RefsHeldOnce s) (hx : x ∈ heldRecords s) :
    heldRecord s x.ref = some x := by
  cases h : heldRecord s x.ref with
  | none => exact absurd rfl (heldRecord_eq_none_iff_forall.mp h x hx)
  | some y => rw [List.inj_on_of_nodup_map hrefs (heldRecord_mem h) hx (heldRecord_ref h)]

/-- A record of the table is not held elsewhere. -/
theorem not_inbound_of_inTable (hrefs : RefsHeldOnce s) (h : (inTable s ref).isSome = true) :
    inPendingOffers s ref = none ∧ inExpected s ref = none := by
  obtain ⟨-, -, -, htp, hte, -⟩ := refsHeldOnce_iff.mp hrefs
  obtain ⟨r, hr⟩ := Option.isSome_iff_exists.mp h
  simp only [inPendingOffers, inExpected, findIn_eq_none, List.mem_map]
  constructor <;> rintro ⟨y, hy, hyr⟩
  · exact htp r (inTable_mem hr) y hy ((inTable_ref hr).trans hyr.symm)
  · exact hte r (inTable_mem hr) y hy ((inTable_ref hr).trans hyr.symm)

/-- A pending offer is not held elsewhere. -/
theorem not_elsewhere_of_inPendingOffers (hrefs : RefsHeldOnce s)
    (h : (inPendingOffers s ref).isSome = true) :
    inTable s ref = none ∧ inExpected s ref = none := by
  obtain ⟨-, -, -, htp, -, hpe⟩ := refsHeldOnce_iff.mp hrefs
  obtain ⟨r, hr⟩ := Option.isSome_iff_exists.mp h
  simp only [inTable, inExpected, findIn_eq_none, List.mem_map]
  constructor <;> rintro ⟨y, hy, hyr⟩
  · exact htp y hy r (inPendingOffers_mem hr) (hyr.trans (inPendingOffers_ref hr).symm)
  · exact hpe r (inPendingOffers_mem hr) y hy ((inPendingOffers_ref hr).trans hyr.symm)

/-- An expected record is not held elsewhere. -/
theorem not_elsewhere_of_inExpected (hrefs : RefsHeldOnce s)
    (h : (inExpected s ref).isSome = true) :
    inTable s ref = none ∧ inPendingOffers s ref = none := by
  obtain ⟨-, -, -, -, hte, hpe⟩ := refsHeldOnce_iff.mp hrefs
  obtain ⟨r, hr⟩ := Option.isSome_iff_exists.mp h
  have hrr : r.ref = ref := findIn_ref hr
  simp only [inTable, inPendingOffers, findIn_eq_none, List.mem_map]
  constructor <;> rintro ⟨y, hy, hyr⟩
  · exact hte y hy r (inExpected_mem hr) (hyr.trans hrr.symm)
  · exact hpe y hy r (inExpected_mem hr) (hyr.trans hrr.symm)

/-! ## A record changed -/

theorem mem_updateIn {l : List Record} :
    x ∈ updateIn l ref f ↔ ∃ y ∈ l, (if y.ref = ref then f y else y) = x := by
  simp [updateIn]

@[simp] theorem updateIn_length (l : List Record) (ref : BagRef) (f : Record → Record) :
    (updateIn l ref f).length = l.length := by simp [updateIn]

theorem updateIn_updateIn (l : List Record) (ref : BagRef) (f g : Record → Record)
    (hf : ∀ r, (f r).ref = r.ref) :
    updateIn (updateIn l ref f) ref g = updateIn l ref (fun r => g (f r)) := by
  simp only [updateIn, List.map_map]
  refine List.map_congr_left fun r _ => ?_
  by_cases h : r.ref = ref <;> simp [h, hf]

/-- Two changes of one record are one change. -/
theorem updateRecord_updateRecord (ref : BagRef) (f g : Record → Record) (s : State)
    (hf : ∀ r, (f r).ref = r.ref) :
    updateRecord ref g (updateRecord ref f s) = updateRecord ref (fun r => g (f r)) s := by
  simp [updateRecord, updateIn_updateIn _ _ _ _ hf]

theorem inTable_updateRecord_same (hf : ∀ r, (f r).ref = r.ref) :
    inTable (updateRecord ref f s) ref = (inTable s ref).map f :=
  findIn_updateIn_same _ _ _ hf

theorem inTable_updateRecord_other (hf : ∀ r, (f r).ref = r.ref) (h : other ≠ ref) :
    inTable (updateRecord ref f s) other = inTable s other :=
  findIn_updateIn_other _ _ hf h

theorem inPendingOffers_updateRecord_same (hf : ∀ r, (f r).ref = r.ref) :
    inPendingOffers (updateRecord ref f s) ref = (inPendingOffers s ref).map f :=
  findIn_updateIn_same _ _ _ hf

theorem inPendingOffers_updateRecord_other (hf : ∀ r, (f r).ref = r.ref) (h : other ≠ ref) :
    inPendingOffers (updateRecord ref f s) other = inPendingOffers s other :=
  findIn_updateIn_other _ _ hf h

theorem inExpected_updateRecord_same (hf : ∀ r, (f r).ref = r.ref) :
    inExpected (updateRecord ref f s) ref = (inExpected s ref).map f :=
  findIn_updateIn_same _ _ _ hf

theorem inExpected_updateRecord_other (hf : ∀ r, (f r).ref = r.ref) (h : other ≠ ref) :
    inExpected (updateRecord ref f s) other = inExpected s other :=
  findIn_updateIn_other _ _ hf h

theorem heldRecord_updateRecord_same (hf : ∀ r, (f r).ref = r.ref) :
    heldRecord (updateRecord ref f s) ref = (heldRecord s ref).map f := by
  simp only [heldRecord, inTable_updateRecord_same hf, inPendingOffers_updateRecord_same hf,
    inExpected_updateRecord_same hf]
  cases inTable s ref <;> cases inPendingOffers s ref <;> rfl

theorem heldRecord_updateRecord_other (hf : ∀ r, (f r).ref = r.ref) (h : other ≠ ref) :
    heldRecord (updateRecord ref f s) other = heldRecord s other := by
  simp only [heldRecord, inTable_updateRecord_other hf h, inPendingOffers_updateRecord_other hf h,
    inExpected_updateRecord_other hf h]

/-- The records held are those held before, the named one changed. -/
theorem heldRecords_updateRecord :
    heldRecords (updateRecord ref f s)
      = (heldRecords s).map fun r => if r.ref = ref then f r else r := by
  simp [heldRecords, updateIn]

theorem heldRecords_refs_updateRecord (hf : ∀ r, (f r).ref = r.ref) :
    (heldRecords (updateRecord ref f s)).map (·.ref) = (heldRecords s).map (·.ref) := by
  rw [heldRecords_updateRecord]
  exact updateIn_map_ref (heldRecords s) ref f hf

theorem inTable_isSome_updateRecord (hf : ∀ r, (f r).ref = r.ref) :
    (inTable (updateRecord ref f s) other).isSome = (inTable s other).isSome := by
  rw [Bool.eq_iff_iff]
  simp only [inTable, findIn_isSome, updateRecord_table, updateIn_map_ref _ _ _ hf]

theorem inPendingOffers_isSome_updateRecord (hf : ∀ r, (f r).ref = r.ref) :
    (inPendingOffers (updateRecord ref f s) other).isSome = (inPendingOffers s other).isSome := by
  rw [Bool.eq_iff_iff]
  simp only [inPendingOffers, findIn_isSome, updateRecord_pendingOffers, updateIn_map_ref _ _ _ hf]

theorem inExpected_isSome_updateRecord (hf : ∀ r, (f r).ref = r.ref) :
    (inExpected (updateRecord ref f s) other).isSome = (inExpected s other).isSome := by
  rw [Bool.eq_iff_iff]
  simp only [inExpected, findIn_isSome, updateRecord_expected, updateIn_map_ref _ _ _ hf]

end

end Sys2Proof.Machine

/-! # What a command can do to the node

`Effect` lists the changes of which every command but those of the Start Unit and the encoder is made,
each with what the invariants ask of it. The invariants of every step are then one case a change. -/

namespace Sys2Proof.Machine

/-- The state of a record of the track table (R19). -/
def OnTheBelt (st : RecordState) : Prop :=
  st = .onBelt ∨ st = .armed ∨ st = .diverting ∨ st = .exiting

/-- R97 for one record. -/
def LapsMarked (limit : Nat) (r : Record) : Prop := limit ≤ r.laps → r.stray ≠ none

/-- What the invariants ask of a record's change: its bag ref stays, its state goes on telling the
collection that holds it, and R97 goes on holding. -/
structure RecordChange (s : State) (ref : BagRef) (f : Record → Record) : Prop where
  keepsRef : ∀ r, (f r).ref = r.ref
  table : RefsHeldOnce s → ∀ r ∈ s.track.table, r.ref = ref → OnTheBelt r.state →
    OnTheBelt (f r).state
  pending : RefsHeldOnce s → ∀ r ∈ s.handoff.pendingOffers, r.ref = ref → r.state = .pending →
    (f r).state = .pending
  expected : RefsHeldOnce s → ∀ r ∈ s.handoff.expected, r.ref = ref → r.state = .expected →
    (f r).state = .expected
  laps : RefsHeldOnce s → ∀ r ∈ heldRecords s, r.ref = ref →
    LapsMarked s.start.image.lapLimit r → LapsMarked s.start.image.lapLimit (f r)

/-- A record taken out of the collection that holds it, with all that names it: `leave` after the end of
its offer. -/
def dropRecord (ref : BagRef) (s : State) : State :=
  { s with
    track :=
      { s.track with
        table := s.track.table.filter fun r => decide (r.ref ≠ ref)
        openEntry := forget ref s.track.openEntry
        openMerge := forget ref s.track.openMerge }
    handoff :=
      { s.handoff with
        pendingOffers := s.handoff.pendingOffers.filter fun r => decide (r.ref ≠ ref)
        expected := s.handoff.expected.filter fun r => decide (r.ref ≠ ref) }
    resolution :=
      { s.resolution with
        requests := s.resolution.requests.filter fun x => decide (x ≠ ref)
        service := s.resolution.service.map fun v => { v with owner := forget ref v.owner } }
    outlets :=
      s.outlets.map fun o => { o with diverting := o.diverting.filter fun x => decide (x ≠ ref) } }

theorem leave_eq (ref : BagRef) (s : State) : leave ref s = dropRecord ref (endOfferOf ref s) := rfl

/-- A record of the expected list or the pending-offer queue moved to the tail of the track table as
`e`. -/
def moveToTable (ref : BagRef) (e : Record) (s : State) : State :=
  { withoutInbound ref s with track := { s.track with table := s.track.table ++ [e] } }

/-- A pending offer moved to the tail of the expected list as `e`, with its waiting request taken out. -/
def moveToList (ref : BagRef) (e : Record) (s : State) : State :=
  { s with
    handoff :=
      { s.handoff with
        pendingOffers := s.handoff.pendingOffers.filter fun x => decide (x.ref ≠ ref)
        expected := s.handoff.expected ++ [e] }
    resolution :=
      { s.resolution with requests := s.resolution.requests.filter fun x => decide (x ≠ ref) } }

/-- The changes a command is made of. With `belt = false` nothing changes on which the merge permit
depends. -/
inductive Effect (belt : Bool) : State → State → Prop where
  | refl (s : State) : Effect belt s s
  | trans {s t u : State} : Effect belt s t → Effect belt t u → Effect belt s u
  | supervision (s : State) (u : SupervisionUnit) : u.statusDue = s.supervision.statusDue →
      (∀ c, s.counter c ≤ 65535 → u.counters.get c ≤ 65535) →
      Effect belt s { s with supervision := u }
  | outlets (s : State) (q : Quad Outlet) :
      (∀ k, (s.outlets.get k).fill ≤ 255 → (q.get k).fill ≤ 255) →
      Effect belt s { s with outlets := q }
  | codes (s : State) (l : List Code) : (s.induction.codes.length ≤ 8 → l.length ≤ 8) →
      Effect belt s { s with induction := { s.induction with codes := l } }
  | line (s : State) (l : LineInterface) (o : Option Outbound) (d : DueStatus) :
      (s.line.answers.length ≤ 4 → l.answers.length ≤ 4) →
      (s.line.notices.length ≤ 8 → l.notices.length ≤ 8) →
      (LineKept s → LineKept
        { s with
          line := l
          handoff := { s.handoff with outbound := o }
          supervision := { s.supervision with statusDue := d } }) →
      Effect belt s
        { s with
          line := l
          handoff := { s.handoff with outbound := o }
          supervision := { s.supervision with statusDue := d } }
  | resolution (s : State) (u : ResolutionUnit) :
      (s.resolution.exceptions.length ≤ 256 → ExceptionsAscending s →
        u.exceptions.length ≤ 256 ∧ (u.exceptions.map (·.cabin)).Pairwise (· < ·)) →
      (RequestsInOrder s → RequestsInOrder { s with resolution := u }) →
      Effect belt s { s with resolution := u }
  | track (s : State) (u : TrackUnit) : u.table = s.track.table →
      (s.track.bagSeq ≤ 2047 → u.bagSeq ≤ 2047) → Effect belt s { s with track := u }
  | update (s : State) (ref : BagRef) (f : Record → Record) : RecordChange s ref f →
      (belt = false → ∀ r, (f r).lead = r.lead ∧ (f r).trail = r.trail) →
      Effect belt s (updateRecord ref f s)
  | drop (s : State) (ref : BagRef) :
      (belt = false → RefsHeldOnce s → inTable s ref = none) → Effect belt s (dropRecord ref s)
  | enter (s : State) (p : Record) : s.start.node = .run → s.start.clearHeld = false →
      s.handoff.pendingOffers.length < 4 → heldRecord s p.ref = none → p.state = .pending →
      LapsMarked s.start.image.lapLimit p →
      Effect belt s
        { s with handoff := { s.handoff with pendingOffers := s.handoff.pendingOffers ++ [p] } }
  | expect (s : State) (r e : Record) : inPendingOffers s r.ref = some r →
      s.handoff.expected.length < 8 → e.ref = r.ref → e.state = .expected →
      (LapsMarked s.start.image.lapLimit r → LapsMarked s.start.image.lapLimit e) →
      Effect belt s (moveToList r.ref e s)
  | tick (s : State) : Effect belt s (passMs s)
  | place (s : State) (l₁ l₂ : List Record) (r : Record) : belt = true → s.track.table = l₁ ++ l₂ →
      s.track.table.length < 48 → eyesFollowed s = true → (BagsKept s → heldRecord s r.ref = none) →
      OnTheBelt r.state →
      (1 ≤ s.start.image.lapLimit → LapsMarked s.start.image.lapLimit r) →
      Effect belt s { s with track := { s.track with table := l₁ ++ r :: l₂ } }
  | promote (s : State) (r e : Record) : belt = true →
      r ∈ s.handoff.pendingOffers ++ s.handoff.expected → s.track.table.length < 48 →
      eyesFollowed s = true → e.ref = r.ref → OnTheBelt e.state →
      (LapsMarked s.start.image.lapLimit r → LapsMarked s.start.image.lapLimit e) →
      Effect belt s (moveToTable r.ref e s)
  | crowdView (s : State) (v : List CrowdEntry) (p : Bool) : belt = true →
      Effect belt s { s with induction := { s.induction with crowdView := v, permit := p } }
  | position (s : State) (p : PositionUnit) : belt = true → p.counter = s.position.counter →
      (s.position.windowCount ≤ 4095 → p.windowCount ≤ 4095) →
      Effect belt s { s with position := p }
  | empty (s : State) : belt = true → Effect belt s (emptyCollections s)

/-- A command's answer is a next state with a property. -/
def Answers (r : Result) (P : State → Prop) : Prop := ∃ t, r = .next t ∧ P t

theorem answers_next {P : State → Prop} {t : State} (h : P t) : Answers (.next t) P := ⟨t, rfl, h⟩

theorem answers_next_iff {P : State → Prop} {t : State} : Answers (.next t) P ↔ P t :=
  ⟨fun ⟨_, h, hp⟩ => by cases h; exact hp, answers_next⟩

/-! ## What an effect leaves alone -/

section
variable {belt : Bool} {s t : State}

theorem Effect.start_eq (h : Effect belt s t) : t.start = s.start := by
  induction h with
  | trans _ _ ih₁ ih₂ => exact ih₂.trans ih₁
  | _ => rfl

theorem Effect.pending_eq (h : Effect belt s t) : t.pending = s.pending := by
  induction h with
  | trans _ _ ih₁ ih₂ => exact ih₂.trans ih₁
  | _ => rfl

/-- Only a pulse and a power-up reset move the position counter (R2). -/
theorem Effect.counter_eq (h : Effect belt s t) : t.position.counter = s.position.counter := by
  induction h with
  | trans _ _ ih₁ ih₂ => exact ih₂.trans ih₁
  | position _ _ _ h => exact h
  | _ => rfl

end

/-! ## The invariant of the collections and counters -/

section
variable {belt : Bool} {s t : State}

theorem bagsKept_updateRecord {ref : BagRef} {f : Record → Record} (hf : ∀ r, (f r).ref = r.ref)
    (h : BagsKept s) : BagsKept (updateRecord ref f s) := by
  obtain ⟨hbounds, hasc, hrefs⟩ := h
  refine ⟨?_, hasc, ?_⟩
  · simpa [Bounded, State.counter] using hbounds
  · rwa [RefsHeldOnce, heldRecords_refs_updateRecord hf]

theorem refs_nodup_filter (hrefs : RefsHeldOnce s) (ref : BagRef) :
    ((heldRecords (dropRecord ref s)).map (·.ref)).Nodup := by
  have hsub : List.Sublist (heldRecords (dropRecord ref s)) (heldRecords s) := by
    simp only [heldRecords, dropRecord]
    exact (List.filter_sublist.append List.filter_sublist).append List.filter_sublist
  exact hrefs.sublist (hsub.map _)

theorem bagsKept_dropRecord (ref : BagRef) (h : BagsKept s) : BagsKept (dropRecord ref s) := by
  obtain ⟨⟨ht, he, hp, ha, hn, hc, hx, hcount, hfill, hrest⟩, hasc, hrefs⟩ := h
  refine ⟨⟨?_, ?_, ?_, ha, hn, hc, hx, hcount, ?_, hrest⟩, hasc, refs_nodup_filter hrefs ref⟩
  · exact (List.length_filter_le _ _).trans ht
  · exact (List.length_filter_le _ _).trans he
  · exact (List.length_filter_le _ _).trans hp
  · intro k
    simpa [dropRecord] using hfill k

theorem refsHeldOnce_enter {p : Record} (hrefs : RefsHeldOnce s) (hfree : heldRecord s p.ref = none) :
    RefsHeldOnce
      { s with handoff := { s.handoff with pendingOffers := s.handoff.pendingOffers ++ [p] } } := by
  rw [heldRecord_eq_none_iff_forall] at hfree
  rw [refsHeldOnce_iff] at hrefs ⊢
  obtain ⟨ht, hp, he, htp, hte, hpe⟩ := hrefs
  have hfreeTable : ∀ x ∈ s.track.table, x.ref ≠ p.ref := fun x hx =>
    hfree x (mem_heldRecords.mpr (.inl hx))
  have hfreePending : ∀ x ∈ s.handoff.pendingOffers, x.ref ≠ p.ref := fun x hx =>
    hfree x (mem_heldRecords.mpr (.inr (.inl hx)))
  have hfreeExpected : ∀ x ∈ s.handoff.expected, x.ref ≠ p.ref := fun x hx =>
    hfree x (mem_heldRecords.mpr (.inr (.inr hx)))
  simp only [List.map_append, List.map_cons, List.map_nil, List.nodup_append, List.mem_append,
    List.mem_map, List.mem_singleton, List.nodup_singleton, forall_exists_index, and_imp]
  refine ⟨ht, ⟨hp, trivial, ?_⟩, he, ?_, hte, ?_⟩
  · rintro _ x hx rfl _ rfl
    exact hfreePending x hx
  · rintro x hx y (hy | rfl)
    · exact htp x hx y hy
    · exact hfreeTable x hx
  · rintro x (hx | rfl) y hy
    · exact hpe x hx y hy
    · exact (hfreeExpected y hy).symm

/-- A record taken from one collection and set down in another under its bag ref. -/
theorem refs_perm_place {l l' : List BagRef} {ref : BagRef} (h : l.Nodup) (hfree : ref ∉ l)
    (hperm : l'.Perm (ref :: l)) : l'.Nodup :=
  hperm.nodup_iff.mpr (List.nodup_cons.mpr ⟨hfree, h⟩)

theorem refsHeldOnce_moveToList {r e : Record} (hrefs : RefsHeldOnce s)
    (hr : inPendingOffers s r.ref = some r) (he : e.ref = r.ref) :
    RefsHeldOnce (moveToList r.ref e s) := by
  obtain ⟨hnt, hne⟩ := not_elsewhere_of_inPendingOffers hrefs (ref := r.ref) (by simp [hr])
  have hkept : ((heldRecords s).filter (fun x => decide (x.ref ≠ r.ref))).map (·.ref)
      |>.Nodup := hrefs.sublist (List.filter_sublist.map _)
  refine refs_perm_place (ref := r.ref) hkept (by simp) ?_
  simp only [inTable, inExpected, findIn_eq_none, List.mem_map, not_exists, not_and] at hnt hne
  have htable : s.track.table.filter (fun x => decide (x.ref ≠ r.ref)) = s.track.table :=
    List.filter_eq_self.mpr fun x hx => decide_eq_true (hnt x hx)
  have hexpected : s.handoff.expected.filter (fun x => decide (x.ref ≠ r.ref)) = s.handoff.expected :=
    List.filter_eq_self.mpr fun x hx => decide_eq_true (hne x hx)
  simp only [heldRecords, moveToList, List.filter_append, htable, hexpected, List.map_append,
    List.map_cons, List.map_nil, he]
  rw [← List.append_assoc]
  exact List.perm_append_singleton _ _

theorem refsHeldOnce_moveToTable {r e : Record} (hrefs : RefsHeldOnce s)
    (hr : r ∈ s.handoff.pendingOffers ++ s.handoff.expected) (he : e.ref = r.ref) :
    RefsHeldOnce (moveToTable r.ref e s) := by
  have hnt : ∀ x ∈ s.track.table, x.ref ≠ r.ref := by
    obtain ⟨-, -, -, htp, hte, -⟩ := refsHeldOnce_iff.mp hrefs
    intro x hx
    rcases List.mem_append.mp hr with hr | hr
    · exact htp x hx r hr
    · exact hte x hx r hr
  have hkept : ((heldRecords s).filter (fun x => decide (x.ref ≠ r.ref))).map (·.ref)
      |>.Nodup := hrefs.sublist (List.filter_sublist.map _)
  refine refs_perm_place (ref := r.ref) hkept (by simp) ?_
  have htable : s.track.table.filter (fun x => decide (x.ref ≠ r.ref)) = s.track.table :=
    List.filter_eq_self.mpr fun x hx => decide_eq_true (hnt x hx)
  simp only [heldRecords, moveToTable, withoutInbound, mapHandoff_handoff, List.filter_append, htable,
    List.map_append, List.map_cons, List.map_nil, he, List.append_assoc]
  exact List.perm_middle

theorem bagsKept_place {l₁ l₂ : List Record} {r : Record} (h : BagsKept s)
    (htable : s.track.table = l₁ ++ l₂) (hroom : s.track.table.length < 48)
    (hfree : heldRecord s r.ref = none) :
    BagsKept { s with track := { s.track with table := l₁ ++ r :: l₂ } } := by
  obtain ⟨⟨ht, hrest⟩, hasc, hrefs⟩ := h
  rw [htable] at hroom
  refine ⟨⟨?_, hrest⟩, hasc, ?_⟩
  · simp at hroom ⊢
    omega
  · refine refs_perm_place (ref := r.ref) hrefs ?_ ?_
    · simpa [heldRecord_eq_none_iff_forall] using hfree
    · simp only [heldRecords, htable, List.map_append, List.map_cons, List.append_assoc,
        List.cons_append]
      exact List.perm_middle

/-- Every effect keeps the collections and counters in bounds (R19, R22, R44, R166). -/
theorem Effect.keeps_bags (h : Effect belt s t) (hs : BagsKept s) : BagsKept t := by
  induction h with
  | refl => exact hs
  | trans _ _ ih₁ ih₂ => exact ih₂ (ih₁ hs)
  | update s ref f hf _ => exact bagsKept_updateRecord hf.keepsRef hs
  | drop s ref _ => exact bagsKept_dropRecord ref hs
  | place s l₁ l₂ r _ htable hroom _ hfree => exact bagsKept_place hs htable hroom (hfree hs)
  | enter s p _ _ hroom hfree _ _ =>
    obtain ⟨⟨ht, he, hp, hrest⟩, hasc, hrefs⟩ := hs
    refine ⟨⟨ht, he, ?_, hrest⟩, hasc, refsHeldOnce_enter hrefs hfree⟩
    simp
    omega
  | expect s r e hr hroom he _ _ =>
    obtain ⟨⟨ht, hexp, hp, hrest⟩, hasc, hrefs⟩ := hs
    refine ⟨⟨ht, ?_, (List.length_filter_le _ _).trans hp, hrest⟩, hasc,
      refsHeldOnce_moveToList hrefs hr he⟩
    simp [moveToList]
    omega
  | promote s r e _ hr hroom _ he _ _ =>
    obtain ⟨⟨ht, hexp, hp, hrest⟩, hasc, hrefs⟩ := hs
    refine ⟨⟨?_, (List.length_filter_le _ _).trans hexp, (List.length_filter_le _ _).trans hp, hrest⟩,
      hasc, refsHeldOnce_moveToTable hrefs hr he⟩
    simp [moveToTable]
    omega
  | supervision s u _ hcount =>
    obtain ⟨⟨ht, he, hp, ha, hn, hc, hx, hcounts, hrest⟩, hasc, hrefs⟩ := hs
    exact ⟨⟨ht, he, hp, ha, hn, hc, hx, fun c => hcount c (hcounts c), hrest⟩, hasc, hrefs⟩
  | outlets s q hfill =>
    obtain ⟨⟨ht, he, hp, ha, hn, hc, hx, hcounts, hfills, hrest⟩, hasc, hrefs⟩ := hs
    exact ⟨⟨ht, he, hp, ha, hn, hc, hx, hcounts, fun k => hfill k (hfills k), hrest⟩, hasc, hrefs⟩
  | codes s l hl =>
    obtain ⟨⟨ht, he, hp, ha, hn, hc, hrest⟩, hasc, hrefs⟩ := hs
    exact ⟨⟨ht, he, hp, ha, hn, hl hc, hrest⟩, hasc, hrefs⟩
  | line s l o d hans hnot _ =>
    obtain ⟨⟨ht, he, hp, ha, hn, hrest⟩, hasc, hrefs⟩ := hs
    exact ⟨⟨ht, he, hp, hans ha, hnot hn, hrest⟩, hasc, hrefs⟩
  | resolution s u hu _ =>
    obtain ⟨⟨ht, he, hp, ha, hn, hc, hx, hrest⟩, hasc, hrefs⟩ := hs
    obtain ⟨hlen, hasc'⟩ := hu hx hasc
    exact ⟨⟨ht, he, hp, ha, hn, hc, hlen, hrest⟩, hasc', hrefs⟩
  | track s u htable hseq =>
    obtain ⟨⟨ht, he, hp, ha, hn, hc, hx, hcounts, hfills, hw, hb⟩, hasc, hrefs⟩ := hs
    refine ⟨⟨?_, he, hp, ha, hn, hc, hx, hcounts, hfills, hw, hseq hb⟩, hasc, ?_⟩
    · simpa only [htable] using ht
    · simpa only [RefsHeldOnce, heldRecords, htable] using hrefs
  | tick s =>
    obtain ⟨⟨ht, he, hp, ha, hn, hc, hx, hcounts, hfills, hrest⟩, hasc, hrefs⟩ := hs
    refine ⟨⟨?_, he, ?_, ha, hn, hc, hx, hcounts, fun k => ?_, hrest⟩, hasc, ?_⟩
    · simpa [passMs] using ht
    · simpa [passMs] using hp
    · simpa [passMs, tickOutlet] using hfills k
    · simpa [RefsHeldOnce, heldRecords, passMs, tickRecord, Function.comp_def] using hrefs
  | crowdView => exact hs
  | position s p _ _ hw =>
    obtain ⟨⟨ht, he, hp, ha, hn, hc, hx, hcounts, hfills, hwc, hb⟩, hasc, hrefs⟩ := hs
    exact ⟨⟨ht, he, hp, ha, hn, hc, hx, hcounts, hfills, hw hwc, hb⟩, hasc, hrefs⟩
  | empty s _ =>
    obtain ⟨⟨ht, he, hp, hrest⟩, hasc, hrefs⟩ := hs
    exact ⟨⟨Nat.zero_le _, Nat.zero_le _, Nat.zero_le _, hrest⟩, hasc, List.nodup_nil⟩

end

end Sys2Proof.Machine

/-! # What every effect keeps -/

namespace Sys2Proof.Machine

section
variable {belt : Bool} {s t : State}

/-! ## The records' states and lap marks (R19, R97) -/

/-- The part of `RecordsKept` that speaks of the records one by one. -/
def RecordsMarked (s : State) : Prop :=
  StatesAgree s ∧ LapsAreMarked s ∧ (s.start.node ≠ .run → heldRecords s = [])

theorem eyesFollowed_iff : eyesFollowed s = true ↔ s.start.node = .run ∧ s.start.clearHeld = false := by
  simp [eyesFollowed, inRun]

theorem recordsKept_iff :
    RecordsKept s ↔ BagsKept s ∧ ResetMeansStart s ∧ RecordsMarked s
      ∧ (s.start.node = .run → 1 ≤ s.start.image.lapLimit) := by
  simp only [RecordsKept, RecordsMarked, and_assoc]

theorem recordsMarked_updateRecord {ref : BagRef} {f : Record → Record} (hrefs : RefsHeldOnce s)
    (hf : RecordChange s ref f) (h : RecordsMarked s) : RecordsMarked (updateRecord ref f s) := by
  obtain ⟨⟨ht, hp, he⟩, hlaps, hempty⟩ := h
  refine ⟨⟨?_, ?_, ?_⟩, ?_, fun hn => ?_⟩
  · intro x hx
    obtain ⟨y, hy, rfl⟩ := mem_updateIn.mp hx
    split
    · exact hf.table hrefs y hy ‹_› (ht y hy)
    · exact ht y hy
  · intro x hx
    obtain ⟨y, hy, rfl⟩ := mem_updateIn.mp hx
    split
    · exact hf.pending hrefs y hy ‹_› (hp y hy)
    · exact hp y hy
  · intro x hx
    obtain ⟨y, hy, rfl⟩ := mem_updateIn.mp hx
    split
    · exact hf.expected hrefs y hy ‹_› (he y hy)
    · exact he y hy
  · intro x hx
    rw [heldRecords_updateRecord, List.mem_map] at hx
    obtain ⟨y, hy, rfl⟩ := hx
    split
    · exact hf.laps hrefs y hy ‹_› (hlaps y hy)
    · exact hlaps y hy
  · rw [heldRecords_updateRecord, hempty hn, List.map_nil]

/-- What stays of the collections stays marked. -/
theorem recordsMarked_of_subset (h : RecordsMarked s) (hstart : t.start = s.start)
    (ht : ∀ x ∈ t.track.table, x ∈ s.track.table)
    (hp : ∀ x ∈ t.handoff.pendingOffers, x ∈ s.handoff.pendingOffers)
    (he : ∀ x ∈ t.handoff.expected, x ∈ s.handoff.expected) : RecordsMarked t := by
  obtain ⟨⟨hst, hsp, hse⟩, hlaps, hempty⟩ := h
  have hsub : ∀ x ∈ heldRecords t, x ∈ heldRecords s := by
    intro x hx
    rw [mem_heldRecords] at hx ⊢
    exact hx.imp (ht x) (Or.imp (hp x) (he x))
  refine ⟨⟨fun x hx => hst x (ht x hx), fun x hx => hsp x (hp x hx), fun x hx => hse x (he x hx)⟩,
    fun x hx => ?_, fun hn => ?_⟩
  · rw [hstart]
    exact hlaps x (hsub x hx)
  · rw [hstart] at hn
    refine List.eq_nil_iff_forall_not_mem.mpr fun x hx => ?_
    simpa [hempty hn] using hsub x hx

theorem recordsMarked_passMs (h : RecordsMarked s) : RecordsMarked (passMs s) := by
  obtain ⟨⟨ht, hp, he⟩, hlaps, hempty⟩ := h
  have hheld : ∀ x ∈ heldRecords (passMs s), ∃ y ∈ heldRecords s, x.laps = y.laps ∧ x.stray = y.stray := by
    intro x hx
    simp only [mem_heldRecords, passMs, List.mem_map] at hx
    rcases hx with ⟨y, hy, rfl⟩ | ⟨y, hy, rfl⟩ | hy
    · exact ⟨y, mem_heldRecords.mpr (.inl hy), rfl, rfl⟩
    · exact ⟨y, mem_heldRecords.mpr (.inr (.inl hy)), rfl, rfl⟩
    · exact ⟨x, mem_heldRecords.mpr (.inr (.inr hy)), rfl, rfl⟩
  refine ⟨⟨?_, ?_, he⟩, ?_, fun hn => ?_⟩
  · rintro x hx
    obtain ⟨y, hy, rfl⟩ := List.mem_map.mp hx
    exact ht y hy
  · rintro x hx
    obtain ⟨y, hy, rfl⟩ := List.mem_map.mp hx
    exact hp y hy
  · intro x hx
    obtain ⟨y, hy, hl, hst⟩ := hheld x hx
    rw [hl, hst]
    exact hlaps y hy
  · refine List.eq_nil_iff_forall_not_mem.mpr fun x hx => ?_
    obtain ⟨y, hy, -⟩ := hheld x hx
    simp [hempty hn] at hy

/-- Every effect keeps R19's states and R97's marks, on a node whose lap limit is at least 1. -/
theorem Effect.keeps_records (h : Effect belt s t) (hb : BagsKept s)
    (hlimit : s.start.node = .run → 1 ≤ s.start.image.lapLimit) (hs : RecordsMarked s) :
    RecordsMarked t := by
  induction h with
  | refl => exact hs
  | trans h₁ _ ih₁ ih₂ =>
    exact ih₂ (h₁.keeps_bags hb) (by rwa [h₁.start_eq]) (ih₁ hb hlimit hs)
  | update s ref f hf _ => exact recordsMarked_updateRecord hb.2.2 hf hs
  | drop s ref _ =>
    exact recordsMarked_of_subset hs rfl (fun _ => List.mem_of_mem_filter)
      (fun _ => List.mem_of_mem_filter) (fun _ => List.mem_of_mem_filter)
  | track s u htable _ =>
    exact recordsMarked_of_subset (t := { s with track := u }) hs rfl (fun _ hx => htable ▸ hx)
      (fun _ hx => hx) (fun _ hx => hx)
  | tick s => exact recordsMarked_passMs hs
  | empty s _ =>
    exact recordsMarked_of_subset (t := emptyCollections s) hs rfl (fun _ hx => nomatch hx)
      (fun _ hx => nomatch hx) (fun _ hx => nomatch hx)
  | place s l₁ l₂ r _ htable _ heyes _ hstate hlaps =>
    have hrun := (eyesFollowed_iff.mp heyes).1
    obtain ⟨⟨ht, hp, he⟩, hl, -⟩ := hs
    rw [htable] at ht
    refine ⟨⟨?_, hp, he⟩, ?_, fun hn => absurd hrun hn⟩
    · intro x hx
      rcases List.mem_append.mp hx with hx | hx
      · exact ht x (List.mem_append_left _ hx)
      · rcases List.mem_cons.mp hx with rfl | hx
        · exact hstate
        · exact ht x (List.mem_append_right _ hx)
    · intro x hx
      have hx' : x = r ∨ x ∈ heldRecords s := by
        simp only [heldRecords, htable, List.mem_append, List.mem_cons] at hx ⊢
        tauto
      rcases hx' with rfl | hx
      · exact hlaps (hlimit hrun)
      · exact hl x hx
  | enter s p hrun _ _ _ hstate hlaps =>
    obtain ⟨⟨ht, hp, he⟩, hl, -⟩ := hs
    refine ⟨⟨ht, ?_, he⟩, ?_, fun hn => absurd hrun hn⟩
    · intro x hx
      rcases List.mem_append.mp hx with hx | hx
      · exact hp x hx
      · rw [List.mem_singleton.mp hx]
        exact hstate
    · intro x hx
      have hx' : x = p ∨ x ∈ heldRecords s := by
        simp only [heldRecords, List.mem_append, List.mem_singleton] at hx ⊢
        tauto
      rcases hx' with rfl | hx
      · exact hlaps
      · exact hl x hx
  | expect s r e hr _ he hstate hlaps =>
    obtain ⟨⟨ht, hp, hexp⟩, hl, hempty⟩ := hs
    have hheld : r ∈ heldRecords s := mem_heldRecords.mpr (.inr (.inl (inPendingOffers_mem hr)))
    refine ⟨⟨ht, fun x hx => hp x (List.mem_of_mem_filter hx), ?_⟩, ?_, fun hn => ?_⟩
    · intro x hx
      rcases List.mem_append.mp hx with hx | hx
      · exact hexp x hx
      · rw [List.mem_singleton.mp hx]
        exact hstate
    · intro x hx
      have hx' : x = e ∨ x ∈ heldRecords s := by
        simp only [heldRecords, moveToList, List.mem_append, List.mem_singleton,
          List.mem_filter] at hx ⊢
        tauto
      rcases hx' with rfl | hx
      · exact hlaps (hl r hheld)
      · exact hl x hx
    · rw [hempty hn] at hheld
      cases hheld
  | promote s r e _ hr _ heyes he hstate hlaps =>
    have hrun := (eyesFollowed_iff.mp heyes).1
    obtain ⟨⟨ht, hp, hexp⟩, hl, -⟩ := hs
    have hheld : r ∈ heldRecords s := by
      simp only [heldRecords, List.mem_append] at hr ⊢
      tauto
    refine ⟨⟨?_, fun x hx => hp x (List.mem_of_mem_filter hx),
      fun x hx => hexp x (List.mem_of_mem_filter hx)⟩, ?_, fun hn => absurd hrun hn⟩
    · intro x hx
      rcases List.mem_append.mp hx with hx | hx
      · exact ht x hx
      · rw [List.mem_singleton.mp hx]
        exact hstate
    · intro x hx
      have hx' : x = e ∨ x ∈ heldRecords s := by
        simp only [heldRecords, moveToTable, withoutInbound, mapHandoff_handoff, List.mem_append,
          List.mem_singleton, List.mem_filter] at hx ⊢
        tauto
      rcases hx' with rfl | hx
      · exact hlaps (hl r hheld)
      · exact hl x hx
  | _ => exact hs

/-! ## The request queue (R52, R58, R59) -/

/-- The request queue's discipline rests on the Resolution Unit and on the bag refs held. -/
theorem requestsInOrder_of_refs (h : RequestsInOrder s) (hres : t.resolution = s.resolution)
    (hheld : ∀ ref, (inTable s ref).isSome = true ∨ (inPendingOffers s ref).isSome = true →
      (inTable t ref).isSome = true ∨ (inPendingOffers t ref).isSome = true) :
    RequestsInOrder t := by
  obtain ⟨hnodup, hrefs, hidle⟩ := h
  refine ⟨by rwa [hres], fun ref href => hheld ref (hrefs ref (by rwa [← hres])), by rwa [hres]⟩

theorem requestsInOrder_dropRecord (ref : BagRef) (h : RequestsInOrder s) :
    RequestsInOrder (dropRecord ref s) := by
  obtain ⟨hnodup, hrefs, hidle⟩ := h
  refine ⟨hnodup.filter _, fun x hx => ?_, fun hserv => ?_⟩
  · obtain ⟨hx, hne⟩ := List.mem_filter.mp hx
    simp only [inTable, inPendingOffers, findIn_isSome, dropRecord, List.mem_map,
      List.mem_filter] at hrefs ⊢
    have hne : x ≠ ref := of_decide_eq_true hne
    rcases hrefs x hx with ⟨y, hy, rfl⟩ | ⟨y, hy, rfl⟩
    · exact .inl ⟨y, ⟨hy, by simpa using hne⟩, rfl⟩
    · exact .inr ⟨y, ⟨hy, by simpa using hne⟩, rfl⟩
  · simp [dropRecord, hidle (Option.map_eq_none_iff.mp hserv)]

theorem requestsInOrder_moveToList (ref : BagRef) (e : Record) (h : RequestsInOrder s) :
    RequestsInOrder (moveToList ref e s) := by
  obtain ⟨hnodup, hrefs, hidle⟩ := h
  refine ⟨hnodup.filter _, fun x hx => ?_, fun hserv => ?_⟩
  · obtain ⟨hx, hne⟩ := List.mem_filter.mp hx
    have hne : x ≠ ref := of_decide_eq_true hne
    simp only [inTable, inPendingOffers, findIn_isSome, moveToList, List.mem_map,
      List.mem_filter] at hrefs ⊢
    rcases hrefs x hx with h | ⟨y, hy, rfl⟩
    · exact .inl h
    · exact .inr ⟨y, ⟨hy, by simpa using hne⟩, rfl⟩
  · simp [moveToList, hidle hserv]

/-- Every effect keeps the request queue's discipline. -/
theorem Effect.keeps_requests (h : Effect belt s t) (hs : RequestsInOrder s) : RequestsInOrder t := by
  induction h with
  | trans _ _ ih₁ ih₂ => exact ih₂ (ih₁ hs)
  | resolution s u _ h => exact h hs
  | update s ref f hf _ =>
    refine requestsInOrder_of_refs hs rfl fun x => ?_
    rw [inTable_isSome_updateRecord hf.keepsRef, inPendingOffers_isSome_updateRecord hf.keepsRef]
    exact id
  | drop s ref _ => exact requestsInOrder_dropRecord ref hs
  | expect s r e _ _ _ _ _ => exact requestsInOrder_moveToList r.ref e hs
  | track s u htable _ =>
    refine requestsInOrder_of_refs hs rfl fun x => ?_
    simp only [inTable, inPendingOffers, htable]
    exact id
  | tick s =>
    refine requestsInOrder_of_refs hs rfl fun x => ?_
    simp [inTable, inPendingOffers, findIn_isSome, passMs, tickRecord]
  | place s l₁ l₂ r _ htable _ _ _ _ _ =>
    refine requestsInOrder_of_refs hs rfl fun x => ?_
    simp only [inTable, inPendingOffers, findIn_isSome, htable, List.map_append, List.map_cons,
      List.mem_append, List.mem_cons]
    tauto
  | enter s p _ _ _ _ _ _ =>
    refine requestsInOrder_of_refs hs rfl fun x => ?_
    simp only [inTable, inPendingOffers, findIn_isSome, List.map_append, List.mem_append]
    tauto
  | promote s r e _ hr _ _ he _ _ =>
    refine requestsInOrder_of_refs hs rfl fun x => ?_
    simp only [inTable, inPendingOffers, findIn_isSome, moveToTable, withoutInbound,
      mapHandoff_handoff, List.map_append, List.mem_append, List.mem_map, List.mem_filter,
      List.mem_singleton]
    rintro (h | ⟨y, hy, rfl⟩)
    · exact .inl (.inl h)
    · by_cases hyr : y.ref = r.ref
      · exact .inl (.inr ⟨e, rfl, he.trans hyr.symm⟩)
      · exact .inr ⟨y, ⟨hy, by simpa using hyr⟩, rfl⟩
  | empty s _ => exact ⟨List.nodup_nil, by simp [emptyCollections], fun _ => rfl⟩
  | _ => exact hs

/-! ## The Line Interface (section 6) -/

/-- The Line Interface's invariant rests on the line, the outbound offer, the due STATUS and the Start
Unit. -/
theorem lineKept_congr (h : LineKept s) (hline : t.line = s.line)
    (hout : offerStage t = some .onLine ↔ offerStage s = some .onLine)
    (hdue : t.supervision.statusDue = s.supervision.statusDue) (hstart : t.start = s.start) :
    LineKept t := by
  simp only [LineKept, ResetMeansStart, StartIsQuiet, LineAgrees, BufferAgrees, hline, hdue, hstart,
    hout] at h ⊢
  exact h

/-- Every effect keeps transmitter, sources, receiver and buffer in agreement. -/
theorem Effect.keeps_line (h : Effect belt s t) (hs : LineKept s) : LineKept t := by
  induction h with
  | refl => exact hs
  | trans _ _ ih₁ ih₂ => exact ih₂ (ih₁ hs)
  | supervision s u hu _ => exact lineKept_congr hs rfl .rfl hu rfl
  | line s l o d _ _ h => exact h hs
  | tick s =>
    refine lineKept_congr hs rfl ?_ rfl rfl
    cases ho : s.handoff.outbound with
    | none => simp [offerStage, passMs, ho]
    | some o => rcases hst : o.stage <;> simp [offerStage, passMs, ho, tickStage, hst]
  | _ => exact lineKept_congr hs rfl .rfl rfl rfl

/-! ## Segment clear (R184, R185) -/

/-- Every effect leaves a clearing node without records. -/
theorem Effect.keeps_clearing (h : Effect belt s t) (hs : ClearingEmpty s) : ClearingEmpty t := by
  induction h with
  | trans _ _ ih₁ ih₂ => exact ih₂ (ih₁ hs)
  | update s ref f _ _ =>
    refine ⟨hs.1, fun hrun hclear => ?_⟩
    obtain ⟨ht, he, hp⟩ := hs.2 hrun hclear
    simp [ht, he, hp, updateIn]
  | drop s ref _ =>
    refine ⟨hs.1, fun hrun hclear => ?_⟩
    obtain ⟨ht, he, hp⟩ := hs.2 hrun hclear
    simp [dropRecord, ht, he, hp]
  | track s u htable _ =>
    refine ⟨hs.1, fun hrun hclear => ?_⟩
    obtain ⟨ht, he, hp⟩ := hs.2 hrun hclear
    exact ⟨htable.trans ht, he, hp⟩
  | tick s =>
    refine ⟨hs.1, fun hrun hclear => ?_⟩
    obtain ⟨ht, he, hp⟩ := hs.2 hrun hclear
    simp [passMs, ht, he, hp]
  | expect s r e hr _ _ _ _ =>
    refine ⟨hs.1, fun hrun hclear => ?_⟩
    obtain ⟨-, -, hp⟩ := hs.2 hrun hclear
    simp [inPendingOffers, findIn, hp] at hr
  | enter s p _ hopen _ _ _ _ => exact ⟨hs.1, fun _ hclear => absurd (hopen.symm.trans hclear) (by simp)⟩
  | place s l₁ l₂ r _ _ _ heyes _ _ _ =>
    exact ⟨hs.1, fun _ hclear => absurd ((eyesFollowed_iff.mp heyes).2.symm.trans hclear) (by simp)⟩
  | promote s r e _ _ _ heyes _ _ _ =>
    exact ⟨hs.1, fun _ hclear => absurd ((eyesFollowed_iff.mp heyes).2.symm.trans hclear) (by simp)⟩
  | empty s _ => exact ⟨hs.1, fun _ _ => ⟨rfl, rfl, rfl⟩⟩
  | _ => exact hs

/-! ## The merge permit (R151) -/

/-- Does a bag with these positions occupy part of the merge zone (R150)? -/
def zoneHolds (s : State) (p : Option Position × Option Position) : Bool :=
  inMergeZone s { newRecord ⟨0, 0⟩ 0 none none with lead := p.1, trail := p.2 }

theorem any_inMergeZone (l : List Record) :
    l.any (inMergeZone s) = (l.map fun r => (r.lead, r.trail)).any (zoneHolds s) := by
  rw [List.any_map]
  rfl

/-- The permit's conditions rest on the Start Unit, the belt, the crowd view, and the lead and trail
positions of the records of the table. -/
theorem permitConditions_congr (hstart : t.start = s.start)
    (hcounter : t.position.counter = s.position.counter) (hband : t.position.band = s.position.band)
    (hstopped : t.position.stopped = s.position.stopped)
    (hview : t.induction.crowdView.any (·.crowded) = s.induction.crowdView.any (·.crowded))
    (htable : t.track.table.map (fun r => (r.lead, r.trail))
      = s.track.table.map fun r => (r.lead, r.trail)) :
    permitConditions t = permitConditions s := by
  have hlength : occupancy t = occupancy s := by
    simpa [occupancy] using congrArg List.length htable
  have hzone : zoneHolds t = zoneHolds s := by
    funext p
    simp [zoneHolds, inMergeZone, leadTravel, trailTravel, hstart, hcounter, hband]
  simp only [permitConditions, any_inMergeZone, htable, hzone, hview, hlength, image_def, inRun, hstart,
    hstopped]

theorem updateIn_map_positions (l : List Record) (ref : BagRef) {f : Record → Record}
    (hf : ∀ r, (f r).lead = r.lead ∧ (f r).trail = r.trail) :
    (updateIn l ref f).map (fun r => (r.lead, r.trail)) = l.map fun r => (r.lead, r.trail) := by
  simp only [updateIn, List.map_map]
  refine List.map_congr_left fun r _ => ?_
  by_cases h : r.ref = ref <;> simp [h, (hf r).1, (hf r).2]

/-- A quiet effect changes neither the permit nor its conditions. -/
theorem Effect.permit_eq (h : Effect false s t) (hb : BagsKept s) :
    t.induction.permit = s.induction.permit ∧ permitConditions t = permitConditions s := by
  induction h with
  | trans h₁ _ ih₁ ih₂ =>
    obtain ⟨hp₁, hc₁⟩ := ih₁ hb
    obtain ⟨hp₂, hc₂⟩ := ih₂ (h₁.keeps_bags hb)
    exact ⟨hp₂.trans hp₁, hc₂.trans hc₁⟩
  | track s u htable _ => exact ⟨rfl, permitConditions_congr rfl rfl rfl rfl rfl (congrArg _ htable)⟩
  | update s ref f _ hf =>
    exact ⟨rfl, permitConditions_congr rfl rfl rfl rfl rfl (updateIn_map_positions _ _ (hf rfl))⟩
  | drop s ref hnone =>
    have hnone := hnone rfl hb.2.2
    rw [inTable, findIn_eq_none, List.mem_map, not_exists] at hnone
    have htable : (dropRecord ref s).track.table = s.track.table :=
      List.filter_eq_self.mpr fun x hx => decide_eq_true fun he => hnone x ⟨hx, he⟩
    exact ⟨rfl, permitConditions_congr rfl rfl rfl rfl rfl (congrArg _ htable)⟩
  | tick s =>
    refine ⟨rfl, permitConditions_congr rfl rfl rfl rfl ?_ ?_⟩
    · have hcrowded : ∀ e, (tickCrowd s.start.station e).crowded = e.crowded := fun e => by
        unfold tickCrowd
        split <;> rfl
      simp [passMs, List.any_map, Function.comp_def, hcrowded]
    · simp [passMs, tickRecord]
  | place _ _ _ _ h => cases h
  | promote _ _ _ h => cases h
  | crowdView _ _ _ h => cases h
  | position _ _ h => cases h
  | empty _ h => cases h
  | _ => exact ⟨rfl, rfl⟩

/-- The permit decided after everything but the arbiter follows its conditions. -/
theorem permitFollows_arbitrate_decidePermit (s : State) :
    PermitFollowsConditions (arbitrate (decidePermit s)) := by
  have h : permitConditions (arbitrate (decidePermit s)) = permitConditions s :=
    permitConditions_congr (by simp) (by simp) (by simp) (by simp) (by simp [decidePermit]) (by simp)
  rw [PermitFollowsConditions, h]
  simp [decidePermit]

theorem permitFollows_decidePermit (s : State) : PermitFollowsConditions (decidePermit s) := rfl

end

end Sys2Proof.Machine

/-! # Effects of the Line Interface's operations -/

namespace Sys2Proof.Machine

section
variable {s t : State}

/-! ## The line's invariant, by what the transmitter holds -/

/-- The line's invariant of a node whose transmitter is IDLE. -/
theorem lineKept_of_idle (hs : LineKept s) (hstart : t.start = s.start)
    (hreceiver : t.line.receiver = s.line.receiver) (hbuffer : t.line.buffer = s.line.buffer)
    (hidle : t.line.transmitter = .idle) (hdue : t.supervision.statusDue ≠ .held) : LineKept t := by
  obtain ⟨hreset, hquiet, -, hbuf⟩ := hs
  refine ⟨?_, ?_, ⟨?_, ?_, ?_, ?_⟩, ?_⟩
  · rwa [ResetMeansStart, hstart]
  · intro hn
    rw [hstart] at hn
    exact ⟨hreceiver.trans (hquiet hn).1, hidle⟩
  · simp [hidle, heldFrame]
  · simp [hidle, heldFrame, hdue]
  · simp [hidle]
  · simp [hidle]
  · rwa [BufferAgrees, hreceiver, hbuffer]

/-- The line's invariant of a node whose transmitter holds a frame. -/
theorem lineKept_of_held {h : HeldFrame} (hs : LineKept s) (hstart : t.start = s.start)
    (hnode : s.start.node ≠ .start) (hreceiver : t.line.receiver = s.line.receiver) (hbuffer : t.line.buffer = s.line.buffer)
    (hheld : heldFrame t.line.transmitter = some h)
    (hanswer : h.source = .answer → t.line.answers.head? = some h.frame)
    (hnotices : h.source = .notices → t.line.notices.head? = some h.frame)
    (hcollisions : h.collisions < 16)
    (hdue : t.supervision.statusDue = .held ↔ h.source = .status)
    (hback : ∀ len count, t.line.transmitter = .backoff h len count →
      len = 24 * (1 + (s.start.station + h.collisions) % 8) ∧ count ≤ len ∧ 1 ≤ h.collisions)
    (hwait : t.line.transmitter = .waitGap h → h.source = .offer → h.collisions = 0 →
      offerStage t = some .onLine) : LineKept t := by
  obtain ⟨hreset, hquiet, -, hbuf⟩ := hs
  refine ⟨?_, ?_, ⟨?_, ?_, ?_, ?_⟩, ?_⟩
  · rwa [ResetMeansStart, hstart]
  · intro hn
    rw [hstart] at hn
    exact absurd hn hnode
  · intro x hx
    cases hheld.symm.trans hx
    exact ⟨hanswer, hnotices, hcollisions⟩
  · rw [hdue, hheld]
    simp
  · intro x len count hx
    rw [hx] at hheld
    cases hheld
    rw [hstart]
    exact hback len count hx
  · intro x hx
    rw [hx] at hheld
    cases hheld
    exact hwait hx
  · rwa [BufferAgrees, hreceiver, hbuffer]

/-- A node in START holds no frame and receives nothing (R176). -/
theorem not_start_of_held {h : HeldFrame} (hs : LineKept s)
    (hheld : heldFrame s.line.transmitter = some h) : s.start.node ≠ .start := by
  intro hn
  rw [(hs.2.1 hn).2] at hheld
  cases hheld

end

/-! ## The line's changes as effects -/

section
variable {belt : Bool} {s t : State}

/-- A change of the line, the offer's stage and the due STATUS alone is an effect where it keeps the
line's invariant. -/
theorem Effect.ofLine
    (ht : t = { s with
      line := t.line
      handoff := { s.handoff with outbound := t.handoff.outbound }
      supervision := { s.supervision with statusDue := t.supervision.statusDue } })
    (hans : s.line.answers.length ≤ 4 → t.line.answers.length ≤ 4)
    (hnot : s.line.notices.length ≤ 8 → t.line.notices.length ≤ 8)
    (hkept : LineKept s → LineKept t) : Effect belt s t := by
  rw [ht]
  exact .line s t.line t.handoff.outbound t.supervision.statusDue hans hnot fun h => ht ▸ hkept h

/-- A change of the line alone. -/
theorem Effect.ofLineAlone (ht : t = { s with line := t.line })
    (hans : s.line.answers.length ≤ 4 → t.line.answers.length ≤ 4)
    (hnot : s.line.notices.length ≤ 8 → t.line.notices.length ≤ 8)
    (hkept : LineKept s → LineKept t) : Effect belt s t := by
  have hhandoff : t.handoff = s.handoff := congrArg (·.handoff) ht
  have hsupervision : t.supervision = s.supervision := congrArg (·.supervision) ht
  refine .ofLine ?_ hans hnot hkept
  rw [hhandoff, hsupervision]
  exact ht

/-! ### Counters and flags -/

theorem raised_get_le {c d : Counter} {u : SupervisionUnit} (h : u.counters.get d ≤ 65535) :
    (raised c u).counters.get d ≤ 65535 := by
  by_cases hd : d = c
  · subst hd
    rw [raised_get_same, nextCount]
    split <;> omega
  · rwa [raised_get_other u hd]

theorem effect_bump (c : Counter) (s : State) : Effect belt s (bump c s) := by
  rw [bump_eq]
  exact .supervision s _ (raised_rest c _).2.2.1 fun d => raised_get_le

theorem effect_bumpOutsideFault (c : Counter) (s : State) : Effect belt s (bumpOutsideFault c s) := by
  unfold bumpOutsideFault
  split
  · exact .refl s
  · exact effect_bump c s

theorem effect_mapFlags (f : StickyFlags → StickyFlags) (s : State) : Effect belt s (s.mapFlags f) :=
  .supervision s _ rfl fun _ => id

theorem effect_zeroCounters (s : State) : Effect belt s (zeroCounters s) :=
  .supervision s _ rfl fun c _ => by rw [Counters_get_allZero]; exact Nat.zero_le _

/-! ### The two queues -/

theorem effect_queueAnswer (f : OutFrame) (s : State) : Effect belt s (queueAnswer f s) := by
  unfold queueAnswer
  split
  · rename_i hroom
    refine .ofLine rfl (fun _ => ?_) id fun h => ?_
    · simp [Config.answerCapacity] at hroom ⊢
      omega
    · obtain ⟨hreset, hquiet, ⟨hheld, hdue⟩, hbuf⟩ := h
      refine ⟨hreset, hquiet, ⟨fun x hx => ?_, hdue⟩, hbuf⟩
      obtain ⟨hans, hnot⟩ := hheld x hx
      refine ⟨fun hsrc => ?_, hnot⟩
      simp [List.head?_append, hans hsrc]
  · exact (effect_bumpOutsideFault _ s).trans (effect_mapFlags _ _)

theorem effect_queueNotice (f : OutFrame) (s : State) : Effect belt s (queueNotice f s) := by
  unfold queueNotice
  split
  · rename_i hroom
    refine .ofLine rfl id (fun _ => ?_) fun h => ?_
    · simp [Config.noticeCapacity] at hroom ⊢
      omega
    · obtain ⟨hreset, hquiet, ⟨hheld, hdue⟩, hbuf⟩ := h
      refine ⟨hreset, hquiet, ⟨fun x hx => ?_, hdue⟩, hbuf⟩
      obtain ⟨hans, hnot, hcol⟩ := hheld x hx
      refine ⟨hans, fun hsrc => ?_, hcol⟩
      simp [List.head?_append, hnot hsrc]
  · exact (effect_bumpOutsideFault _ s).trans (effect_mapFlags _ _)

/-! ### The arbiter -/

/-- Taking a frame back leaves its STATUS due, not held. -/
theorem statusDue_markReturned (src : FrameSource) (s : State) :
    (markReturned src s).supervision.statusDue
      = if src = .status then .due else s.supervision.statusDue := by
  cases src <;> rfl

theorem statusDue_markTaken (src : FrameSource) (s : State) :
    (markTaken src s).supervision.statusDue
      = if src = .status then .held else s.supervision.statusDue := by
  cases src <;> rfl

theorem lineKept_takeBack (hs : LineKept s) : LineKept (takeBack s) := by
  unfold takeBack
  split
  · rename_i h htr
    split
    · refine lineKept_of_idle hs (by simp) (by simp [setTransmitter]) (by simp [setTransmitter]) rfl ?_
      rw [(setTransmitter_rest _ _).2.2.2.2.2.2.1, statusDue_markReturned]
      split
      · simp
      · rename_i hsrc
        intro hheld
        obtain ⟨x, hx, hstatus⟩ := hs.2.2.1.2.1.mp hheld
        rw [htr] at hx
        cases hx
        exact hsrc hstatus
    · exact hs
  · exact hs

theorem offerFrame_isSome {f : OutFrame} (h : offerFrame s = some f) :
    ∃ o, s.handoff.outbound = some o ∧ o.stage = .due := by
  unfold offerFrame at h
  split at h
  · split at h
    · exact ⟨_, ‹_›, ‹_›⟩
    · cases h
  · cases h

/-- The transmitter holds the frame that entered WAIT-GAP, waiting or being sent. -/
theorem enterWaitGap_transmitter (h : HeldFrame) (s : State) :
    (enterWaitGap h s).line.transmitter = .waitGap h
      ∨ (enterWaitGap h s).line.transmitter = .sending h := by
  unfold enterWaitGap
  simp only [mapLine_line]
  split
  · exact .inr rfl
  · exact .inl rfl

theorem enterWaitGap_line_rest (h : HeldFrame) (s : State) :
    (enterWaitGap h s).line.receiver = s.line.receiver
      ∧ (enterWaitGap h s).line.buffer = s.line.buffer
      ∧ (enterWaitGap h s).line.answers = s.line.answers
      ∧ (enterWaitGap h s).line.notices = s.line.notices := by
  unfold enterWaitGap
  simp only [mapLine_line]
  split <;> exact ⟨rfl, rfl, rfl, rfl⟩

theorem heldFrame_enterWaitGap (h : HeldFrame) (s : State) :
    heldFrame (enterWaitGap h s).line.transmitter = some h := by
  rcases enterWaitGap_transmitter h s with e | e <;> rw [e] <;> rfl

theorem lineKept_handOver (hs : LineKept s) (hon : s.line.receiver ≠ .off)
    (hidle : s.line.transmitter = .idle) : LineKept (handOver s) := by
  have hnotHeld : s.supervision.statusDue ≠ .held := by
    intro hheld
    obtain ⟨x, hx, -⟩ := hs.2.2.1.2.1.mp hheld
    rw [hidle] at hx
    cases hx
  unfold handOver
  split
  · exact hs
  · rename_i src _
    split
    · exact hs
    · rename_i f hf
      obtain ⟨hrec, hbuf, hans, hnot⟩ :=
        enterWaitGap_line_rest ⟨src, f, 0⟩ (markTaken src s)
      have hnode : s.start.node ≠ .start := fun hn => hon (hs.2.1 hn).1
      refine lineKept_of_held hs (by simp) hnode (by simp [holdFrame, hrec]) (by simp [holdFrame, hbuf])
        (heldFrame_enterWaitGap _ _) ?_ ?_ (by simp) ?_ ?_ ?_
      · rintro rfl
        rw [sourceFrame] at hf
        simpa [holdFrame, hans] using hf
      · rintro rfl
        rw [sourceFrame] at hf
        simpa [holdFrame, hnot] using hf
      · simp only [holdFrame, enterWaitGap_rest, statusDue_markTaken]
        by_cases hsrc : src = .status <;> simp [hsrc, hnotHeld]
      · intro len count hb
        rcases enterWaitGap_transmitter ⟨src, f, 0⟩ (markTaken src s) with e | e <;>
          simp [holdFrame, e] at hb
      · rintro - rfl -
        obtain ⟨o, ho, -⟩ := offerFrame_isSome hf
        simp [offerStage, holdFrame, markTaken, setStage, ho]

theorem lineKept_arbitrate (hs : LineKept s) : LineKept (arbitrate s) := by
  unfold arbitrate
  split
  · exact hs
  · rename_i hon
    have ht := lineKept_takeBack hs
    have hreceiver : (takeBack s).line.receiver = s.line.receiver :=
      congrArg (·.line.receiver) (arbiterOnly_takeBack s).1
    dsimp only
    split
    · rename_i hidle
      exact lineKept_handOver ht (by rwa [hreceiver]) hidle
    · exact ht

theorem notices_of_arbiterOnly (h : ArbiterOnly s t) : t.line.notices = s.line.notices :=
  congrArg (·.line.notices) h.1

/-- What the arbiter alone changes is an effect. -/
theorem effect_arbitrate (s : State) : Effect belt s (arbitrate s) := by
  have h := arbiterOnly_arbitrate s
  have hline : (arbitrate s).line = { s.line with
      transmitter := (arbitrate s).line.transmitter, idleCount := (arbitrate s).line.idleCount } :=
    congrArg (·.line) h.1
  refine .ofLine (h.1.trans ?_) (fun hl => by rwa [answers_of_arbiterOnly h])
    (fun hl => by rwa [notices_of_arbiterOnly h]) lineKept_arbitrate
  conv_rhs => rw [hline]

/-! ### The offer's stage and its frame -/

/-- A new stage of the outbound offer is an effect where the frame of its first attempt does not wait. -/
theorem effect_setStage {stage : OfferStage}
    (h : ∀ x, s.line.transmitter = .waitGap x → x.source = .offer → x.collisions = 0 → False) :
    Effect belt s (setStage stage s) := by
  refine .ofLine rfl id id fun hs => ?_
  obtain ⟨hreset, hquiet, ⟨hheld, hdue, hback, -⟩, hbuf⟩ := hs
  exact ⟨hreset, hquiet, ⟨hheld, hdue, hback, fun x hx hsrc hcol => (h x hx hsrc hcol).elim⟩, hbuf⟩

/-- An offer that is not ON LINE has no frame waiting for its first gap. -/
theorem effect_setStage_of_not_onLine {stage : OfferStage} (h : offerStage s ≠ some .onLine) :
    Effect belt s (setStage stage s) := by
  refine .ofLine rfl id id fun hs => ?_
  obtain ⟨hreset, hquiet, ⟨hheld, hdue, hback, hwait⟩, hbuf⟩ := hs
  exact ⟨hreset, hquiet,
    ⟨hheld, hdue, hback, fun x hx hsrc hcol => absurd (hwait x hx hsrc hcol) h⟩, hbuf⟩

theorem effect_afterAttempt (h : offerStage s ≠ some .onLine) : Effect belt s (afterAttempt s) := by
  unfold afterAttempt
  split
  · exact effect_setStage_of_not_onLine h
  · exact .refl s

/-- Where the OFFER frame that is withdrawn is held, the STATUS is not. -/
theorem lineKept_withdrawOffer (hs : LineKept s) : LineKept (withdrawOffer s) := by
  have hfree : ∀ h, heldFrame s.line.transmitter = some h → h.source = .offer →
      LineKept (s.mapLine fun u => { u with transmitter := .idle, turn := .notices }) := by
    intro h hh hsrc
    refine lineKept_of_idle hs rfl rfl rfl rfl fun hheld => ?_
    obtain ⟨x, hx, hstatus⟩ := hs.2.2.1.2.1.mp hheld
    cases hh.symm.trans hx
    rw [hsrc] at hstatus
    cases hstatus
  unfold withdrawOffer
  dsimp only
  split
  · split
    · exact hfree _ (by rw [‹s.line.transmitter = _›]; rfl) ‹_›
    · exact hs
  · split
    · exact hfree _ (by rw [‹s.line.transmitter = _›]; rfl) ‹_›
    · exact hs
  · exact hs

theorem withdrawOffer_line_rest (s : State) :
    (withdrawOffer s).line.answers = s.line.answers ∧ (withdrawOffer s).line.notices = s.line.notices
      ∧ (withdrawOffer s).line.receiver = s.line.receiver
      ∧ (withdrawOffer s).line.buffer = s.line.buffer
      ∧ (withdrawOffer s).line.idleCount = s.line.idleCount
      ∧ (withdrawOffer s).line.rate = s.line.rate ∧ (withdrawOffer s).line.msBits = s.line.msBits := by
  unfold withdrawOffer
  dsimp only
  repeat' split
  all_goals exact ⟨rfl, rfl, rfl, rfl, rfl, rfl, rfl⟩

theorem withdrawOffer_eq (s : State) : withdrawOffer s = { s with line := (withdrawOffer s).line } := by
  unfold withdrawOffer
  dsimp only
  repeat' split
  all_goals rfl

theorem effect_withdrawOffer (s : State) : Effect belt s (withdrawOffer s) := by
  exact .ofLineAlone (withdrawOffer_eq s) (fun h => by rwa [(withdrawOffer_line_rest s).1])
    (fun h => by rwa [(withdrawOffer_line_rest s).2.1]) lineKept_withdrawOffer

theorem endOfferFrame_cases (s : State) : endOfferFrame s = s ∨ endOfferFrame s = withdrawOffer s := by
  unfold endOfferFrame
  split
  · split
    · exact .inr rfl
    · exact .inl rfl
  · exact .inl rfl

theorem endOfferFrame_eq (s : State) : endOfferFrame s = { s with line := (endOfferFrame s).line } := by
  rcases endOfferFrame_cases s with h | h <;> rw [h]
  exact withdrawOffer_eq s

theorem endOfferFrame_line_rest (s : State) :
    (endOfferFrame s).line.answers = s.line.answers ∧ (endOfferFrame s).line.notices = s.line.notices
      ∧ (endOfferFrame s).line.receiver = s.line.receiver
      ∧ (endOfferFrame s).line.buffer = s.line.buffer
      ∧ (endOfferFrame s).line.idleCount = s.line.idleCount
      ∧ (endOfferFrame s).line.rate = s.line.rate ∧ (endOfferFrame s).line.msBits = s.line.msBits := by
  rcases endOfferFrame_cases s with h | h <;> rw [h]
  · exact ⟨rfl, rfl, rfl, rfl, rfl, rfl, rfl⟩
  · exact withdrawOffer_line_rest s

theorem effect_endOfferFrame (s : State) : Effect belt s (endOfferFrame s) := by
  unfold endOfferFrame
  split
  · split
    · exact effect_withdrawOffer s
    · exact .refl s
  · exact .refl s

/-- Once an offer's frame has been withdrawn, no frame of it waits for its first gap. -/
theorem no_first_gap_after_endOfferFrame (hs : LineKept s) {x : HeldFrame}
    (hx : (endOfferFrame s).line.transmitter = .waitGap x) (hsrc : x.source = .offer)
    (hcol : x.collisions = 0) : False := by
  by_cases hon : offerStage s = some .onLine
  · obtain ⟨o, ho, hstage⟩ := Option.map_eq_some_iff.mp hon
    have hend : endOfferFrame s = withdrawOffer s := by
      simp [endOfferFrame, ho, holdsFrameOf, hstage]
    rw [hend] at hx
    unfold withdrawOffer at hx
    dsimp only at hx
    split at hx
    · rename_i h htr
      split at hx
      · simp at hx
      · rw [htr] at hx
        cases hx
        contradiction
    · rename_i h _ _ htr
      split at hx
      · simp at hx
      · rw [htr] at hx
        cases hx
    · simp_all
  · have hkept : LineKept (endOfferFrame s) := by
      exact (effect_endOfferFrame (belt := true) s).keeps_line hs
    have hstage : offerStage (endOfferFrame s) = offerStage s := by simp [offerStage]
    exact hon (hstage ▸ hkept.2.2.1.2.2.2 x hx hsrc hcol)

/-- The end of an offer, or its being spent: its frame is withdrawn and the outbound offer changed. -/
theorem effect_endOfferFrame_outbound (g : Option Outbound → Option Outbound) (s : State) :
    Effect belt s ((endOfferFrame s).mapHandoff fun u => { u with outbound := g u.outbound }) := by
  have hrest := endOfferFrame_line_rest s
  refine .ofLine ?_ (fun h => ?_) (fun h => ?_) fun hs => ?_
  · rw [endOfferFrame_eq]
    rfl
  · simpa [hrest.1] using h
  · simpa [hrest.2.1] using h
  · obtain ⟨hreset, hquiet, ⟨hheld, hdue, hback, -⟩, hbuf⟩ :=
      (effect_endOfferFrame (belt := true) s).keeps_line hs
    exact ⟨hreset, hquiet, ⟨hheld, hdue, hback, fun x hx hsrc hcol =>
      (no_first_gap_after_endOfferFrame hs hx hsrc hcol).elim⟩, hbuf⟩

theorem effect_endOfferOf (ref : BagRef) (s : State) : Effect belt s (endOfferOf ref s) := by
  unfold endOfferOf
  split
  · split
    · exact effect_endOfferFrame_outbound (fun _ => none) s
    · exact .refl s
  · exact .refl s

end

end Sys2Proof.Machine

/-! # Effects of the operations on records -/

namespace Sys2Proof.Machine

section
variable {s t u : State}

/-! ## The bag refs held -/

/-- The three collections hold the same bag refs in the same order. -/
def SameRefs (s t : State) : Prop :=
  t.track.table.map (·.ref) = s.track.table.map (·.ref)
    ∧ t.handoff.pendingOffers.map (·.ref) = s.handoff.pendingOffers.map (·.ref)
    ∧ t.handoff.expected.map (·.ref) = s.handoff.expected.map (·.ref)

theorem sameRefs_refl (s : State) : SameRefs s s := ⟨rfl, rfl, rfl⟩

theorem SameRefs.trans (h : SameRefs s t) (k : SameRefs t u) : SameRefs s u :=
  ⟨k.1.trans h.1, k.2.1.trans h.2.1, k.2.2.trans h.2.2⟩

theorem sameRefs_of_eq (ht : t.track.table = s.track.table) (hh : t.handoff = s.handoff) :
    SameRefs s t := by
  rw [SameRefs, ht, hh]
  exact ⟨rfl, rfl, rfl⟩

theorem SameRefs.inTable_isSome (h : SameRefs s t) (ref : BagRef) :
    (inTable t ref).isSome = (inTable s ref).isSome := by
  rw [Bool.eq_iff_iff, inTable, inTable, findIn_isSome, findIn_isSome, h.1]

theorem SameRefs.inPendingOffers_isSome (h : SameRefs s t) (ref : BagRef) :
    (inPendingOffers t ref).isSome = (inPendingOffers s ref).isSome := by
  rw [Bool.eq_iff_iff, inPendingOffers, inPendingOffers, findIn_isSome, findIn_isSome, h.2.1]

theorem SameRefs.inExpected_isSome (h : SameRefs s t) (ref : BagRef) :
    (inExpected t ref).isSome = (inExpected s ref).isSome := by
  rw [Bool.eq_iff_iff, inExpected, inExpected, findIn_isSome, findIn_isSome, h.2.2]

theorem heldRecord_isSome {ref : BagRef} :
    (heldRecord s ref).isSome
      = ((inTable s ref).isSome || (inPendingOffers s ref).isSome || (inExpected s ref).isSome) := by
  unfold heldRecord
  cases inTable s ref <;> cases inPendingOffers s ref <;> simp

theorem SameRefs.heldRecord_isSome (h : SameRefs s t) (ref : BagRef) :
    (heldRecord t ref).isSome = (heldRecord s ref).isSome := by
  rw [Machine.heldRecord_isSome, Machine.heldRecord_isSome, h.inTable_isSome,
    h.inPendingOffers_isSome, h.inExpected_isSome]

theorem sameRefs_updateRecord (ref : BagRef) {f : Record → Record} (hf : ∀ r, (f r).ref = r.ref) :
    SameRefs s (updateRecord ref f s) :=
  ⟨updateIn_map_ref _ _ _ hf, updateIn_map_ref _ _ _ hf, updateIn_map_ref _ _ _ hf⟩

theorem sameRefs_raiseRequest (ref : BagRef) (s : State) : SameRefs s (raiseRequest ref s) := by
  unfold raiseRequest
  split
  · exact sameRefs_updateRecord ref fun _ => rfl
  · split
    · exact sameRefs_refl s
    · exact sameRefs_of_eq (by simp) (by simp)

theorem sameRefs_markStray (cause : StrayCause) (ref : BagRef) (s : State) :
    SameRefs s (markStray cause ref s) := by
  unfold markStray
  split
  · exact sameRefs_refl s
  · split
    · exact sameRefs_refl s
    · have h := sameRefs_updateRecord (s := s) ref (f := fun r => { r with stray := some cause })
        fun _ => rfl
      dsimp only
      split
      · exact h.trans (sameRefs_raiseRequest ref _)
      · exact h

theorem sameRefs_lapCheck (ref : BagRef) (s : State) : SameRefs s (lapCheck ref s) := by
  unfold lapCheck
  split
  · exact sameRefs_refl s
  · split
    · exact sameRefs_markStray _ _ _
    · exact sameRefs_refl s

theorem sameRefs_markAll (cause : StrayCause) (refs : List BagRef) (s : State) :
    SameRefs s (refs.foldl (fun t x => markStray cause x t) s) := by
  induction refs generalizing s with
  | nil => exact sameRefs_refl s
  | cons ref refs ih => exact (sameRefs_markStray cause ref s).trans (ih _)

theorem sameRefs_bump (c : Counter) (s : State) : SameRefs s (bump c s) :=
  sameRefs_of_eq (by simp) (by simp)

theorem sameRefs_duplicateCheck (ref : BagRef) (s : State) : SameRefs s (duplicateCheck ref s) := by
  unfold duplicateCheck
  split
  · exact sameRefs_refl s
  · split
    · exact sameRefs_refl s
    · exact (sameRefs_markAll _ _ s).trans (sameRefs_bump _ _)

/-! ## Changes of one record -/

theorem RecordChange.of_state {ref : BagRef} {f : Record → Record} (href : ∀ r, (f r).ref = r.ref)
    (hstate : ∀ r, (f r).state = r.state)
    (hlaps : ∀ r, LapsMarked s.start.image.lapLimit r → LapsMarked s.start.image.lapLimit (f r)) :
    RecordChange s ref f where
  keepsRef := href
  table _ r _ _ h := by rwa [hstate]
  pending _ r _ _ h := by rwa [hstate]
  expected _ r _ _ h := by rwa [hstate]
  laps _ r _ _ := hlaps r

/-- A change of the one record that is held under a bag ref. -/
theorem RecordChange.of_held {ref : BagRef} {f : Record → Record} (href : ∀ r, (f r).ref = r.ref)
    (hstate : ∀ r, (f r).state = r.state)
    (hlaps : RefsHeldOnce s → ∀ r, heldRecord s ref = some r → LapsMarked s.start.image.lapLimit r →
      LapsMarked s.start.image.lapLimit (f r)) :
    RecordChange s ref f where
  keepsRef := href
  table _ r _ _ h := by rwa [hstate]
  pending _ r _ _ h := by rwa [hstate]
  expected _ r _ _ h := by rwa [hstate]
  laps hrefs r hr hrr := hlaps hrefs r (hrr ▸ heldRecord_of_mem hrefs hr)

/-- A record of the track table may take any state of the belt. -/
theorem RecordChange.of_inTable {ref : BagRef} {f : Record → Record} (href : ∀ r, (f r).ref = r.ref)
    (hin : (inTable s ref).isSome = true) (hstate : ∀ r, OnTheBelt (f r).state)
    (hlaps : ∀ r, LapsMarked s.start.image.lapLimit r → LapsMarked s.start.image.lapLimit (f r)) :
    RecordChange s ref f where
  keepsRef := href
  table _ r _ _ _ := hstate r
  pending hrefs r hr hrr _ := by
    have h := (not_inbound_of_inTable hrefs hin).1
    rw [inPendingOffers, findIn_eq_none, List.mem_map] at h
    exact absurd ⟨r, hr, hrr⟩ h
  expected hrefs r hr hrr _ := by
    have h := (not_inbound_of_inTable hrefs hin).2
    rw [inExpected, findIn_eq_none, List.mem_map] at h
    exact absurd ⟨r, hr, hrr⟩ h
  laps _ r _ _ := hlaps r

end

section
variable {belt : Bool} {s : State}

/-! ## Requests (R52, R58, R59) -/

/-- A request taken or not, the queue is in order once its requests are for records held. -/
theorem requestsInOrder_startResolution (hnodup : s.resolution.requests.Nodup)
    (hheld : ∀ ref ∈ s.resolution.requests,
      (inTable s ref).isSome = true ∨ (inPendingOffers s ref).isSome = true) :
    RequestsInOrder (startResolution s) := by
  unfold startResolution
  split
  · rename_i ref rest _ hreq
    rw [hreq] at hnodup hheld
    refine ⟨(List.nodup_cons.mp hnodup).2, fun x hx => hheld x (List.mem_cons_of_mem _ hx), ?_⟩
    intro hnone
    have hsome : (heldRecord s ref).isSome = true := by
      rw [heldRecord_isSome]
      rcases hheld ref List.mem_cons_self with h | h <;> simp [h]
    simp only [mapResolution_resolution, Option.map_eq_none_iff] at hnone
    simp [hnone] at hsome
  · rename_i hno
    refine ⟨hnodup, hheld, fun hnone => ?_⟩
    cases hreq : s.resolution.requests with
    | nil => rfl
    | cons ref rest => exact (hno _ _ hnone hreq).elim

theorem startResolution_eq (s : State) :
    startResolution s = { s with resolution := (startResolution s).resolution } := by
  unfold startResolution
  split <;> rfl

theorem startResolution_exceptions (s : State) :
    (startResolution s).resolution.exceptions = s.resolution.exceptions
      ∧ (startResolution s).resolution.cabinEntries = s.resolution.cabinEntries := by
  unfold startResolution
  split <;> exact ⟨rfl, rfl⟩

/-- A change of the Resolution Unit that leaves the exception table. -/
theorem Effect.ofResolution {t : State} (ht : t = { s with resolution := t.resolution })
    (hexc : t.resolution.exceptions = s.resolution.exceptions)
    (hreq : RequestsInOrder s → RequestsInOrder t) : Effect belt s t := by
  rw [ht]
  refine .resolution s _ (fun hlen hasc => ?_) fun h => ht ▸ hreq h
  rw [hexc]
  exact ⟨hlen, hasc⟩

theorem effect_raiseRequest {ref : BagRef} (hheld : (heldRecord s ref).isSome = true) :
    Effect belt s (raiseRequest ref s) := by
  unfold raiseRequest
  split
  · exact .update s ref _ (.of_state (fun _ => rfl) (fun _ => rfl) fun _ => id)
      fun _ _ => ⟨rfl, rfl⟩
  · rename_i hexp
    split
    · exact .refl s
    · rename_i hnew
      have hin : (inTable s ref).isSome = true ∨ (inPendingOffers s ref).isSome = true := by
        rw [heldRecord_isSome] at hheld
        simpa [hexp] using hheld
      refine .ofResolution ?_ (startResolution_exceptions _).1 fun h => ?_
      · rw [startResolution_eq]
        rfl
      · obtain ⟨hnodup, hrefs, -⟩ := h
        refine requestsInOrder_startResolution ?_ fun x hx => ?_
        · exact List.nodup_append.mpr ⟨hnodup, List.nodup_singleton _, fun a ha b hb => by
            rw [List.mem_singleton.mp hb]
            exact fun hab => hnew (hab ▸ ha)⟩
        · rcases List.mem_append.mp hx with hx | hx
          · exact hrefs x hx
          · rw [List.mem_singleton.mp hx]
            exact hin

theorem effect_markStray (cause : StrayCause) (ref : BagRef) (s : State) :
    Effect belt s (markStray cause ref s) := by
  unfold markStray
  split
  · exact .refl s
  · rename_i r hr
    split
    · exact .refl s
    · have h : Effect belt s (updateRecord ref (fun r => { r with stray := some cause }) s) :=
        .update s ref _ (.of_state (fun _ => rfl) (fun _ => rfl) fun r _ => by simp [LapsMarked])
          fun _ _ => ⟨rfl, rfl⟩
      dsimp only
      split
      · refine h.trans (effect_raiseRequest ?_)
        rw [(sameRefs_updateRecord ref (fun _ => by rfl)).heldRecord_isSome, hr]
        rfl
      · exact h

theorem effect_lapCheck (ref : BagRef) (s : State) : Effect belt s (lapCheck ref s) := by
  unfold lapCheck
  split
  · exact .refl s
  · split
    · exact effect_markStray _ _ s
    · exact .refl s

theorem effect_markAll (cause : StrayCause) (refs : List BagRef) (s : State) :
    Effect belt s (refs.foldl (fun t x => markStray cause x t) s) := by
  induction refs generalizing s with
  | nil => exact .refl s
  | cons ref refs ih => exact (effect_markStray cause ref s).trans (ih _)

theorem effect_duplicateCheck (ref : BagRef) (s : State) : Effect belt s (duplicateCheck ref s) := by
  unfold duplicateCheck
  split
  · exact .refl s
  · split
    · exact .refl s
    · exact (effect_markAll _ _ s).trans (effect_bump _ _)

theorem effect_raiseRequests {refs : List BagRef}
    (hheld : ∀ ref ∈ refs, (heldRecord s ref).isSome = true) :
    Effect belt s (raiseRequests refs s) := by
  unfold raiseRequests
  induction refs generalizing s with
  | nil => exact .refl s
  | cons ref refs ih =>
    refine (effect_raiseRequest (hheld ref List.mem_cons_self)).trans (ih fun x hx => ?_)
    rw [(sameRefs_raiseRequest ref s).heldRecord_isSome]
    exact hheld x (List.mem_cons_of_mem _ hx)

/-! ### A record changed and then checked for its laps (R97) -/

/-- A record's change, made good by a lap check of the record. -/
theorem effect_lapCheck_updateRecord {ref : BagRef} {f : Record → Record}
    (href : ∀ r, (f r).ref = r.ref) (hstate : ∀ r, (f r).state = r.state)
    (hpos : ∀ r, (f r).lead = r.lead ∧ (f r).trail = r.trail) (s : State) :
    Effect belt s (lapCheck ref (updateRecord ref f s)) := by
  have hupdate : ∀ g : Record → Record, (∀ r, (g r).ref = r.ref) → (∀ r, (g r).state = r.state) →
      (∀ r, (g r).lead = r.lead ∧ (g r).trail = r.trail) →
      (∀ r, heldRecord s ref = some r → LapsMarked s.start.image.lapLimit (g r)) →
      Effect belt s (updateRecord ref g s) := by
    intro g hgref hgstate hgpos hglaps
    exact .update s ref g (.of_held hgref hgstate fun _ r hr _ => hglaps r hr) fun _ => hgpos
  have hheld := heldRecord_updateRecord_same (s := s) (ref := ref) href
  unfold lapCheck
  split
  · rename_i hnone
    rw [hheld, Option.map_eq_none_iff] at hnone
    exact hupdate f href hstate hpos fun r hr => by simp [hnone] at hr
  · rename_i r hr
    rw [hheld, Option.map_eq_some_iff] at hr
    obtain ⟨x, hx, rfl⟩ := hr
    split
    · unfold markStray
      rw [hheld, hx]
      dsimp only [Option.map_some]
      split
      · rename_i hstray
        refine hupdate f href hstate hpos fun r hr _ => ?_
        cases hx.symm.trans hr
        exact Option.isSome_iff_ne_none.mp hstray
      · rw [updateRecord_updateRecord _ _ _ _ href]
        have h : Effect belt s (updateRecord ref (fun r => { f r with stray := some .laps }) s) :=
          hupdate _ href hstate hpos fun _ _ _ => by simp
        split
        · refine h.trans (effect_raiseRequest ?_)
          rw [(sameRefs_updateRecord ref (by exact href)).heldRecord_isSome, hx]
          rfl
        · exact h
    · rename_i hlaps
      refine hupdate f href hstate hpos fun r hr hle => ?_
      cases hx.symm.trans hr
      exact absurd hle hlaps

/-! ## The outbound offer and the occupancy -/

theorem effect_takeUpOffer (s : State) : Effect belt s (takeUpOffer s) := by
  unfold takeUpOffer
  split
  · rename_i r hout _
    refine .trans (.update s r.ref (fun r => { r with heldOffer := true })
      (.of_state (fun _ => rfl) (fun _ => rfl) fun _ => id) fun _ _ => ⟨rfl, rfl⟩)
      (.ofLine rfl id id fun hs => ?_)
    obtain ⟨hreset, hquiet, ⟨hheld, hdue, hback, hwait⟩, hbuf⟩ := hs
    refine ⟨hreset, hquiet, ⟨hheld, hdue, hback, fun x hx hsrc hcol => ?_⟩, hbuf⟩
    simp [offerStage, hout] at hwait
    exact absurd hcol (hwait x hx hsrc)
  · exact .refl s

theorem effect_setCrowded (on : Bool) (s : State) : Effect true s (setCrowded on s) :=
  .trans (.supervision s { s.supervision with crowded := on } rfl fun _ => id)
    (.trans (.crowdView _ _ _ rfl) (effect_queueNotice _ _))

theorem effect_occupancyRose (s : State) : Effect true s (occupancyRose s) := by
  unfold occupancyRose
  split
  · exact effect_setCrowded _ s
  · exact .refl s

theorem effect_occupancyFell (s : State) : Effect true s (occupancyFell s) := by
  unfold occupancyFell
  split
  · exact effect_setCrowded _ s
  · exact .refl s

theorem effect_decidePermit (s : State) : Effect true s (decidePermit s) :=
  .crowdView s s.induction.crowdView _ rfl

/-! ## Leaving the node -/

theorem endOfferOf_handoff (ref : BagRef) (s : State) :
    (endOfferOf ref s).handoff.pendingOffers = s.handoff.pendingOffers
      ∧ (endOfferOf ref s).handoff.expected = s.handoff.expected := by
  unfold endOfferOf
  split
  · split
    · simp
    · exact ⟨rfl, rfl⟩
  · exact ⟨rfl, rfl⟩

theorem heldRecords_endOfferOf (ref : BagRef) (s : State) :
    heldRecords (endOfferOf ref s) = heldRecords s := by
  simp [heldRecords, endOfferOf_handoff]

theorem effect_leave {ref : BagRef}
    (h : belt = false → RefsHeldOnce s → inTable s ref = none) : Effect belt s (leave ref s) := by
  rw [leave_eq]
  refine (effect_endOfferOf ref s).trans (.drop _ ref fun hb hrefs => ?_)
  rw [RefsHeldOnce, heldRecords_endOfferOf] at hrefs
  simpa [inTable] using h hb hrefs

theorem effect_leaveTable (ref : BagRef) (s : State) : Effect true s (leaveTable ref s) :=
  .trans (effect_leave (by simp)) ((effect_occupancyFell _).trans (effect_takeUpOffer _))

theorem deadlineReached_eq_some {r : Record} (h : deadlineReached s = some r) :
    ∃ rest d, s.handoff.expected = r :: rest ∧ r.deadline = some d ∧ reached s d = true := by
  unfold deadlineReached at h
  split at h
  · split at h
    · split at h
      · cases h
        exact ⟨_, _, ‹_›, ‹_›, ‹_›⟩
      · cases h
    · cases h
  · cases h

theorem effect_takeMissing {r : Record} (hr : r ∈ s.handoff.expected) :
    Effect belt s (takeMissing r s) := by
  refine (effect_leave fun _ hrefs => ?_).trans ((effect_bump _ _).trans (effect_queueNotice _ _))
  exact (not_elsewhere_of_inExpected hrefs (findIn_isSome.mpr (List.mem_map_of_mem hr))).1

theorem effect_settleDeadlines (n : Nat) (s : State) : Effect belt s (settleDeadlines n s) := by
  induction n generalizing s with
  | zero => exact .refl s
  | succ n ih =>
    unfold settleDeadlines
    split
    · rename_i r hr
      obtain ⟨rest, d, hexp, -⟩ := deadlineReached_eq_some hr
      exact (effect_takeMissing (hexp ▸ List.mem_cons_self)).trans (ih _)
    · exact .refl s

/-! ## Exits and offer points -/

theorem effect_takeExit (ref : BagRef) (s : State) : Effect true s (takeExit ref s) :=
  (effect_leaveTable ref s).trans (effect_bump _ _)

theorem effect_settleExit (ref : BagRef) (s : State) : Effect true s (settleExit ref s) := by
  unfold settleExit
  split
  · split
    · exact effect_takeExit ref s
    · exact .refl s
  · exact .refl s

theorem effect_becomeExiting {ref : BagRef} (hin : (inTable s ref).isSome = true) :
    Effect true s (becomeExiting ref s) := by
  refine .trans ?_ ((effect_settleExit ref _).trans (effect_takeUpOffer _))
  exact .update s ref _ (.of_inTable (fun _ => rfl) hin (fun _ => .inr (.inr (.inr rfl)))
    fun _ => id) nofun

theorem effect_takeOfferPoint {r : Record} (hin : (inTable s r.ref).isSome = true) :
    Effect true s (takeOfferPoint r s) := by
  have h : Effect true s (updateRecord r.ref (fun r => { r with pastOfferPoint := true }) s) :=
    .update s r.ref _ (.of_state (fun _ => rfl) (fun _ => rfl) fun _ => id) nofun
  unfold takeOfferPoint
  dsimp only
  split
  · refine h.trans (effect_becomeExiting ?_)
    rwa [(sameRefs_updateRecord r.ref (fun _ => by rfl)).inTable_isSome]
  · exact h

theorem effect_settleOfferPoint (ref : BagRef) (s : State) :
    Effect true s (settleOfferPoint ref s) := by
  unfold settleOfferPoint
  split
  · rename_i r hr
    split
    · exact effect_takeOfferPoint (by rw [inTable_ref hr, hr]; rfl)
    · exact .refl s
  · exact .refl s

/-! ## Fire and arming -/

theorem effect_refuse {ref : BagRef} (cause : RefusalCause) (hin : (inTable s ref).isSome = true) :
    Effect belt s (refuse cause ref s) := by
  refine .trans ?_ (effect_bump _ _)
  exact .update s ref _ (.of_inTable (fun _ => rfl) hin (fun _ => .inl rfl) fun _ => id)
    fun _ _ => ⟨rfl, rfl⟩

theorem effect_mapOutlet (k : OutletNo) {f : Outlet → Outlet}
    (hf : ∀ o : Outlet, o.fill ≤ 255 → (f o).fill ≤ 255) (s : State) :
    Effect belt s (s.mapOutlet k f) := by
  refine .outlets s _ fun j hj => ?_
  by_cases hjk : j = k
  · subst hjk
    simpa using hf _ hj
  · rwa [Quad_get_set_other _ _ hjk]

theorem effect_mapOutlets {f : Outlet → Outlet} (hf : ∀ o : Outlet, (f o).fill = o.fill) (s : State) :
    Effect belt s (s.mapOutlets f) :=
  .outlets s _ fun j hj => by simpa [hf] using hj

theorem effect_takeFire {ref : BagRef} (k : OutletNo) (hin : (inTable s ref).isSome = true) :
    Effect belt s (takeFire k ref s) := by
  unfold takeFire
  split
  · refine .trans ?_ (effect_mapOutlet k (by exact fun _ => id) _)
    exact .update s ref _ (.of_inTable (fun _ => rfl) hin (fun _ => .inr (.inr (.inl rfl)))
      fun _ => id) fun _ _ => ⟨rfl, rfl⟩
  · exact effect_refuse _ hin

theorem effect_takeArming {r : Record} (k : OutletNo) (hin : (inTable s r.ref).isSome = true) :
    Effect belt s (takeArming k r s) := by
  unfold takeArming
  split
  · exact (effect_refuse _ hin).trans (effect_markStray _ _ _)
  · exact effect_refuse _ hin
  · exact .update s r.ref _ (.of_state (fun _ => rfl) (fun _ => rfl) fun _ => id)
      fun _ _ => ⟨rfl, rfl⟩
  · rename_i f _
    have h : Effect belt s (updateRecord r.ref
        (fun r => { r with state := .armed, verdictFixed := true, firePosition := some f }) s) :=
      .update s r.ref _ (.of_inTable (fun _ => rfl) hin (fun _ => .inr (.inl rfl)) fun _ => id)
        fun _ _ => ⟨rfl, rfl⟩
    dsimp only
    split
    · refine h.trans (effect_takeFire k ?_)
      rwa [(sameRefs_updateRecord r.ref (fun _ => by rfl)).inTable_isSome]
    · exact h

theorem effect_settleArming (ref : BagRef) (s : State) : Effect belt s (settleArming ref s) := by
  unfold settleArming
  split
  · rename_i r hr
    split
    · exact effect_takeArming _ (by rw [inTable_ref hr, hr]; rfl)
    · exact .refl s
  · exact .refl s

/-! ## Read windows and trailing edges -/

theorem effect_openWindow (ref : BagRef) (s : State) : Effect belt s (openWindow ref s) :=
  .update s ref _ (.of_state (fun _ => rfl) (fun _ => rfl) fun _ => id) fun _ _ => ⟨rfl, rfl⟩

theorem effect_noreadOn (r : Record) (s : State) : Effect belt s (noreadOn r s) := by
  unfold noreadOn
  split
  · exact effect_markStray _ _ s
  · exact .refl s

theorem effect_closeWindow (r : Record) (s : State) : Effect belt s (closeWindow r s) := by
  refine .trans ?_ (effect_noreadOn r _)
  exact .update s r.ref _ (.of_state (fun _ => rfl) (fun _ => rfl) fun _ => id) fun _ _ => ⟨rfl, rfl⟩

theorem effect_settleWindow (ref : BagRef) (s : State) : Effect belt s (settleWindow ref s) := by
  unfold settleWindow
  split
  · split
    · exact effect_closeWindow _ s
    · exact .refl s
  · exact .refl s

theorem effect_measure (ref : BagRef) (trail : Position) (s : State) :
    Effect true s (measure ref trail s) := by
  unfold measure
  split
  · exact .refl s
  · rename_i r hr
    refine .trans (.update s ref (fun r' => { r' with
      trail := some trail, length := some (measuredLength (r.lead.getD trail) trail)
      measuredHere := true
      lengthDoubt := r'.lengthDoubt || disagrees s r (measuredLength (r.lead.getD trail) trail) })
      (.of_state (fun _ => rfl) (fun _ => rfl) fun _ => id) nofun) ?_
    dsimp only
    split
    · exact effect_markStray _ _ _
    · exact .refl _

end

end Sys2Proof.Machine

/-! # Effects of the belt's commands -/

namespace Sys2Proof.Machine

section
variable {s : State}

/-! ## The bag ref drawn (R29) -/

/-- All that the search for a free sequence can answer. -/
theorem freeSeq_spec (s : State) (n q : Nat) (hq : q < 2048) :
    ∃ m ≤ n, freeSeq s n q = (q + m) % 2048
      ∧ (∀ j < m, refHeld s ⟨s.start.station, (q + j) % 2048⟩ = true)
      ∧ (m < n → refHeld s ⟨s.start.station, (q + m) % 2048⟩ = false) := by
  induction n generalizing q with
  | zero => exact ⟨0, le_rfl, (Nat.mod_eq_of_lt hq).symm, by simp, by simp⟩
  | succ n ih =>
    have hq0 : (q + 0) % 2048 = q := Nat.mod_eq_of_lt hq
    unfold freeSeq
    split
    · rename_i hheld
      obtain ⟨m, hm, heq, hbefore, hfree⟩ := ih (nextSeq q) (Nat.mod_lt _ (by decide))
      have hshift : ∀ j, (nextSeq q + j) % 2048 = (q + (j + 1)) % 2048 := fun j => by
        unfold nextSeq
        omega
      refine ⟨m + 1, Nat.succ_le_succ hm, by rw [heq, hshift], fun j hj => ?_, fun hmn => ?_⟩
      · cases j with
        | zero => rwa [hq0]
        | succ j =>
          rw [← hshift]
          exact hbefore j (by omega)
      · rw [← hshift]
        exact hfree (by omega)
    · rename_i hfree
      exact ⟨0, Nat.zero_le _, hq0.symm, by simp, fun _ => by rw [hq0]; simpa using hfree⟩

theorem heldRecords_length_le (hs : BagsKept s) : (heldRecords s).length ≤ 60 := by
  obtain ⟨⟨ht, he, hp, -⟩, -⟩ := hs
  simp only [heldRecords, List.length_append]
  omega

/-- At most 60 records are held, so one of 61 sequences is free. -/
theorem exists_free_of_bagsKept (hs : BagsKept s) (q : Nat) :
    ∃ j < 61, refHeld s ⟨s.start.station, (q + j) % 2048⟩ = false := by
  by_contra hall
  push Not at hall
  have hsub : (List.range 61).map (fun j => (⟨s.start.station, (q + j) % 2048⟩ : BagRef))
      ⊆ (heldRecords s).map (·.ref) := by
    intro ref href
    obtain ⟨j, hj, rfl⟩ := List.mem_map.mp href
    have hheld := hall j (List.mem_range.mp hj)
    rw [Bool.ne_false_iff, refHeld, Option.isSome_iff_exists] at hheld
    obtain ⟨r, hr⟩ := hheld
    exact List.mem_map.mpr ⟨r, heldRecord_mem hr, heldRecord_ref hr⟩
  have hnodup : ((List.range 61).map fun j =>
      (⟨s.start.station, (q + j) % 2048⟩ : BagRef)).Nodup := by
    refine List.Nodup.map_on (fun i hi j hj hij => ?_) List.nodup_range
    have hi := List.mem_range.mp hi
    have hj := List.mem_range.mp hj
    injection hij with _ hij
    omega
  have hlen := (List.subperm_of_subset hnodup hsub).length_le
  have hheld := heldRecords_length_le hs
  simp only [List.length_map, List.length_range] at hlen
  omega

/-- The bag ref drawn is not held, and its sequence is the first free one (R29). -/
theorem drawnRef_spec (hs : BagsKept s) :
    heldRecord s (drawnRef s) = none ∧ FirstFree s (drawnRef s).seq := by
  have hseq : s.track.bagSeq < 2048 := by
    obtain ⟨⟨-, -, -, -, -, -, -, -, -, -, hb⟩, -⟩ := hs
    omega
  obtain ⟨m, hm, heq, hbefore, hfree⟩ := freeSeq_spec s 61 s.track.bagSeq hseq
  have hlt : m < 61 := by
    by_contra hge
    obtain ⟨j, hj, hno⟩ := exists_free_of_bagsKept hs s.track.bagSeq
    rw [hbefore j (by omega)] at hno
    cases hno
  refine ⟨?_, m, by omega, heq, hbefore⟩
  have h := hfree hlt
  rw [← heq, refHeld, Option.isSome_eq_false_iff, Option.isNone_iff_eq_none] at h
  exact h

theorem freeSeq_lt (s : State) (n : Nat) {q : Nat} (hq : q < 2048) : freeSeq s n q < 2048 := by
  obtain ⟨m, -, heq, -⟩ := freeSeq_spec s n q hq
  rw [heq]
  exact Nat.mod_lt _ (by decide)

end

section
variable {belt : Bool} {s : State}

/-! ## Arrivals -/

theorem effect_track {f : TrackUnit → TrackUnit} (htable : (f s.track).table = s.track.table)
    (hseq : s.track.bagSeq ≤ 2047 → (f s.track).bagSeq ≤ 2047) : Effect belt s (s.mapTrack f) :=
  .track s _ htable hseq

theorem effect_nextSeq (q : Nat) (s : State) :
    Effect belt s (s.mapTrack fun u => { u with bagSeq := nextSeq q }) :=
  effect_track rfl fun _ => by
    have h : nextSeq q < 2048 := Nat.mod_lt _ (by decide)
    exact Nat.le_of_lt_succ h

theorem effect_settleHead (s : State) : Effect belt s (settleHead s) := effect_settleDeadlines _ s

theorem sameRefs_setCrowded (on : Bool) (s : State) : SameRefs s (setCrowded on s) :=
  sameRefs_of_eq (by simp) (by simp)

theorem sameRefs_occupancyRose (s : State) : SameRefs s (occupancyRose s) :=
  sameRefs_of_eq (by simp) (by simp)

theorem effect_lapAtLoopHead (ref : BagRef) (s : State) : Effect belt s (lapAtLoopHead ref s) := by
  unfold lapAtLoopHead
  split
  · exact effect_lapCheck_updateRecord (f := raiseLaps) (fun _ => rfl) (fun _ => rfl)
      (fun _ => ⟨rfl, rfl⟩) s
  · exact .refl s

theorem inTable_placeAtTail (r : Record) (s : State) :
    (inTable (placeAtTail r s) r.ref).isSome = true := by
  simp [inTable, findIn_isSome, placeAtTail]

theorem effect_promote {r : Record} (fromPending : Bool)
    (hr : r ∈ s.handoff.pendingOffers ++ s.handoff.expected) (hroom : s.track.table.length < 48)
    (heyes : eyesFollowed s = true) : Effect true s (promote fromPending r s) := by
  have hplace : Effect true s
      (placeAtTail (promoted s.position.counter r) (withoutInbound r.ref s)) :=
    .trans (.promote s r (promoted s.position.counter r) rfl hr hroom heyes rfl (.inl rfl) id)
      (.track _ { s.track with
        table := s.track.table ++ [promoted s.position.counter r], openEntry := some r.ref } rfl id)
  unfold promote
  refine hplace.trans ((effect_occupancyRose _).trans ?_)
  refine .trans (effect_raiseRequest (ref := r.ref) ?_) ?_
  · rw [(sameRefs_occupancyRose _).heldRecord_isSome, heldRecord_isSome]
    have h := inTable_placeAtTail (promoted s.position.counter r) (withoutInbound r.ref s)
    change (inTable _ r.ref).isSome = true at h
    rw [h]
    rfl
  · refine (effect_lapAtLoopHead r.ref _).trans ?_
    refine .trans ?_ ((effect_settleArming r.ref _).trans
      ((effect_settleOfferPoint r.ref _).trans (effect_settleHead _)))
    split
    · exact effect_duplicateCheck _ _
    · exact .refl _

theorem nextSeq_le (q : Nat) : nextSeq q ≤ 2047 :=
  Nat.le_of_lt_succ (Nat.mod_lt _ (by decide))

theorem heldRecord_isSome_of_mem {ref : BagRef} (h : ref ∈ s.track.table.map (·.ref)) :
    (heldRecord s ref).isSome = true := by
  rw [heldRecord_isSome, inTable, findIn_isSome.mpr h]
  rfl

theorem effect_anonymousArrival (hroom : s.track.table.length < 48) (heyes : eyesFollowed s = true) :
    Effect true s (anonymousArrival s) := by
  have hplace := Effect.place (belt := true) s s.track.table []
    (newRecord (drawnRef s) s.position.counter none (some .anon)) rfl (List.append_nil _).symm hroom
    heyes (fun hs => (drawnRef_spec hs).1) (.inl rfl) fun _ _ => by simp [newRecord]
  refine hplace.trans (.trans (.track _ { s.track with
    table := s.track.table ++ [newRecord (drawnRef s) s.position.counter none (some .anon)]
    bagSeq := nextSeq (drawnRef s).seq, openEntry := some (drawnRef s) } rfl
    fun _ => nextSeq_le _) ?_)
  refine (effect_bump .anonymous _).trans ((effect_occupancyRose _).trans
    (.trans (effect_raiseRequest ?_) (effect_settleOfferPoint (drawnRef s) _)))
  rw [(sameRefs_occupancyRose _).heldRecord_isSome, (sameRefs_bump _ _).heldRecord_isSome]
  exact heldRecord_isSome_of_mem (by simp [newRecord])

theorem effect_untrackedArrival (found : Option Record) (s : State) :
    Effect true s (untrackedArrival found s) := by
  unfold untrackedArrival
  have hleave : Effect true s (match found with | some r => leave r.ref s | none => s) := by
    split
    · exact effect_leave (by simp)
    · exact .refl s
  exact hleave.trans ((effect_track (by rfl) (by exact id)).trans
    ((effect_bump _ _).trans (effect_settleHead _)))

theorem effect_entryArrival (heyes : eyesFollowed s = true) : Effect true s (entryArrival s) := by
  have hroom : ∀ {h : Bool}, h = decide (Config.tableCapacity ≤ occupancy s) → ¬h = true →
      s.track.table.length < 48 := fun {h} e hn => by
    subst e
    exact Nat.lt_of_not_le fun hle => hn (decide_eq_true hle)
  unfold entryArrival
  dsimp only
  split
  · rename_i r rest hexp
    split
    · exact effect_untrackedArrival _ s
    · exact effect_promote false (by simp [hexp]) (hroom rfl ‹_›) heyes
  · rename_i r rest _ hpend
    split
    · exact effect_untrackedArrival _ s
    · exact effect_promote true (by simp [hpend]) (hroom rfl ‹_›) heyes
  · split
    · exact effect_untrackedArrival _ s
    · exact effect_anonymousArrival (hroom rfl ‹_›) heyes

/-- What ends a command that touches the belt: the permit is decided, then the arbiter works. -/
theorem effect_arbitrate_decidePermit (s : State) : Effect true s (arbitrate (decidePermit s)) :=
  (effect_decidePermit s).trans (effect_arbitrate _)

theorem effect_entryEyeArrival (s : State) : Answers (execEntryEyeArrival s) (Effect true s) := by
  refine answers_next ?_
  split
  · exact (effect_entryArrival ‹_›).trans (effect_arbitrate_decidePermit _)
  · exact .refl s

theorem effect_entryEyeTrailingEdge (s : State) :
    Answers (execEntryEyeTrailingEdge s) (Effect true s) := by
  refine answers_next ?_
  split
  · split
    · exact (effect_measure _ _ s).trans ((effect_track (by rfl) (by exact id)).trans
        ((effect_settleWindow _ _).trans ((effect_settleExit _ _).trans
          (effect_arbitrate_decidePermit _))))
    · exact .refl s
  · exact .refl s

/-! ## Merges -/

/-- The place by travel is some place in the table. -/
theorem insertByTravel_eq (s : State) (r : Record) (l : List Record) :
    ∃ l₁ l₂, l = l₁ ++ l₂ ∧ insertByTravel s r l = l₁ ++ r :: l₂ := by
  induction l with
  | nil => exact ⟨[], [], rfl, rfl⟩
  | cons x l ih =>
    unfold insertByTravel
    split
    · exact ⟨[], x :: l, rfl, rfl⟩
    · obtain ⟨l₁, l₂, rfl, h⟩ := ih
      exact ⟨x :: l₁, l₂, rfl, by rw [h]; rfl⟩

theorem effect_dropCode (s : State) : Effect belt s (dropCode s) :=
  .codes s _ fun h => by
    rw [List.length_tail]
    omega

theorem effect_mergedArrival (coded : Bool) (hroom : s.track.table.length < 48)
    (heyes : eyesFollowed s = true) : Effect true s (mergedArrival coded s) := by
  set r := newRecord (drawnRef s) (behind s.position.counter s.image.mergeDistance)
    (mergedTag coded s).1 (mergedTag coded s).2 with hr
  obtain ⟨l₁, l₂, htable, hinsert⟩ := insertByTravel_eq s r s.track.table
  have hplace := Effect.place (belt := true) s l₁ l₂ r rfl htable hroom heyes
    (fun hs => (drawnRef_spec hs).1) (.inl rfl) fun hlimit hlaps => by
      simp [hr, newRecord] at hlaps
      omega
  refine hplace.trans (.trans (.track _ { s.track with
    bagSeq := nextSeq (drawnRef s).seq, table := insertByTravel s r s.track.table
    openMerge := some (drawnRef s) } hinsert fun _ => nextSeq_le _) ?_)
  have hdrop : ∀ t : State, Effect true t (if coded then dropCode t else t) := fun t => by
    split
    · exact effect_dropCode t
    · exact .refl t
  have hcheck : ∀ (t : State) (ref : BagRef) (b : Bool),
      Effect true t (if b then duplicateCheck ref t else t) := fun t ref b => by
    split
    · exact effect_duplicateCheck ref t
    · exact .refl t
  refine (hdrop _).trans ((effect_occupancyRose _).trans ((hcheck _ (drawnRef s) _).trans
    (.trans (effect_raiseRequest ?_) (effect_settleOfferPoint (drawnRef s) _))))
  have hsame : ∀ (t : State) (ref : BagRef) (b : Bool),
      SameRefs t (if b then duplicateCheck ref t else t) := fun t ref b => by
    split
    · exact sameRefs_duplicateCheck ref t
    · exact sameRefs_refl t
  have hdropped : ∀ t : State, SameRefs t (if coded then dropCode t else t) := fun t => by
    split
    · exact sameRefs_of_eq rfl rfl
    · exact sameRefs_refl t
  rw [(hsame _ _ _).heldRecord_isSome, (sameRefs_occupancyRose _).heldRecord_isSome,
    (hdropped _).heldRecord_isSome]
  refine heldRecord_isSome_of_mem (List.mem_map.mpr ⟨r, ?_, rfl⟩)
  change r ∈ insertByTravel s r s.track.table
  simp [hinsert]

theorem effect_untrackedMerge (coded : Bool) (s : State) : Effect true s (untrackedMerge coded s) := by
  unfold untrackedMerge
  refine (effect_track (f := fun u => { u with openMerge := none }) rfl id).trans
    ((effect_bump .untracked _).trans ?_)
  split
  · exact effect_dropCode _
  · exact .refl _

theorem effect_mergeArrival (coded : Bool) (s : State) :
    Answers (execMergeArrival coded s) (Effect true s) := by
  refine answers_next ?_
  split
  · rename_i h
    have harrival : Effect true s (if decide (Config.tableCapacity ≤ occupancy s) = true
        then untrackedMerge coded s else mergedArrival coded s) := by
      split
      · exact effect_untrackedMerge coded s
      · rename_i hroom
        refine effect_mergedArrival coded ?_ h.1
        exact Nat.lt_of_not_le fun hle => hroom (decide_eq_true hle)
    have hforced : ∀ (t : State) (b : Bool), Effect true t (if b then setForcedMerge t else t) :=
      fun t b => by
        split
        · exact effect_mapFlags _ t
        · exact .refl t
    exact harrival.trans ((hforced _ _).trans (effect_arbitrate_decidePermit _))
  · exact .refl s

theorem effect_mergeEyeTrailingEdge (s : State) :
    Answers (execMergeEyeTrailingEdge s) (Effect true s) := by
  refine answers_next ?_
  split
  · split
    · exact (effect_measure _ _ s).trans ((effect_track (by rfl) (by exact id)).trans
        ((effect_settleWindow _ _).trans ((effect_settleArming _ _).trans
          ((effect_settleExit _ _).trans (effect_arbitrate_decidePermit _)))))
    · exact .refl s
  · exact .refl s

theorem effect_speedWindowEnd (s : State) : Answers (execSpeedWindowEnd s) (Effect true s) := by
  refine answers_next ?_
  split
  · exact .trans (.position s (endWindow (inRun s) s.image s.position) rfl rfl fun _ => Nat.zero_le _)
      (effect_decidePermit _)
  · exact .refl s

/-! ## The tag reader -/

theorem effect_setReader (bytes : List Byte) (gap : Option Nat) (s : State) :
    Effect belt s (setReader bytes gap s) :=
  effect_track rfl id

theorem effect_damagedMessage (s : State) : Effect belt s (damagedMessage s) :=
  (effect_setReader [] none s).trans (effect_bump _ _)

theorem effect_bindRead {r : Record} (cabin letter : Nat) (hr : r ∈ s.track.table) :
    Effect belt s (bindRead r cabin letter s) := by
  have href : ∀ x, (readRecord cabin letter x).ref = x.ref := fun _ => rfl
  have hsame := sameRefs_updateRecord (s := s) r.ref href
  have hread : Effect belt s (if readClears r.stray
        then lapCheck r.ref (updateRecord r.ref (readRecord cabin letter) s)
        else updateRecord r.ref (readRecord cabin letter) s)
      ∧ SameRefs s (if readClears r.stray
        then lapCheck r.ref (updateRecord r.ref (readRecord cabin letter) s)
        else updateRecord r.ref (readRecord cabin letter) s) := by
    split
    · exact ⟨effect_lapCheck_updateRecord href (fun _ => rfl) (fun _ => ⟨rfl, rfl⟩) s,
        hsame.trans (sameRefs_lapCheck _ _)⟩
    · rename_i hkeeps
      refine ⟨.update s r.ref _ (.of_held href (fun _ => rfl) fun hrefs x hx hlaps => ?_)
        fun _ _ => ⟨rfl, rfl⟩, hsame⟩
      have hheld := heldRecord_of_mem hrefs (mem_heldRecords.mpr (.inl hr))
      cases hheld.symm.trans hx
      simp only [LapsMarked, readRecord, hkeeps] at hlaps ⊢
      exact hlaps
  refine hread.1.trans ((effect_duplicateCheck _ _).trans (effect_raiseRequest ?_))
  rw [(sameRefs_duplicateCheck _ _).heldRecord_isSome, hread.2.heldRecord_isSome]
  exact heldRecord_isSome_of_mem (List.mem_map_of_mem hr)

theorem frontOpenWindow_mem {r : Record} (h : frontOpenWindow s = some r) : r ∈ s.track.table :=
  List.mem_of_find?_eq_some h

theorem effect_takeResult (res : ReaderResult) (s : State) : Effect belt s (takeResult res s) := by
  unfold takeResult
  split
  · exact effect_bump _ s
  · rename_i r hr
    split
    · exact effect_bindRead _ _ (frontOpenWindow_mem hr)
    · exact effect_closeWindow r s

theorem effect_readerByte (b : Byte) (s : State) : Effect belt s (readerByte b s) := by
  unfold readerByte
  split
  · split
    · exact effect_setReader _ _ s
    · exact effect_bump _ s
  · dsimp only
    split
    · exact effect_setReader _ _ s
    · split
      · exact (effect_setReader _ _ s).trans (effect_takeResult _ _)
      · exact effect_damagedMessage s

theorem effect_readerBytes (bytes : List Byte) (s : State) :
    Effect belt s (bytes.foldl (fun t b => readerByte b t) s) := by
  induction bytes generalizing s with
  | nil => exact .refl s
  | cons b bytes ih => exact (effect_readerByte b s).trans (ih _)

theorem effect_readerMessage (bytes : List Byte) (s : State) :
    Answers (execReaderMessage bytes s) (Effect belt s) := by
  refine answers_next ?_
  split
  · exact effect_readerBytes bytes s
  · exact .refl s

theorem effect_readerGapTimeout (s : State) : Answers (execReaderGapTimeout s) (Effect belt s) := by
  refine answers_next ?_
  split
  · exact effect_damagedMessage s
  · exact .refl s

theorem effect_damagedReaderByte (b : Byte) (stopOk : Bool) (s : State) :
    Answers (execDamagedReaderByte b stopOk s) (Effect belt s) := by
  refine answers_next ?_
  split
  · split
    · exact effect_readerByte b s
    · exact effect_damagedMessage s
  · exact .refl s

theorem effect_readWindowOpen (ref : BagRef) (s : State) :
    Answers (execReadWindowOpen ref s) (Effect belt s) := by
  refine answers_next ?_
  split
  · split
    · exact effect_openWindow ref s
    · exact .refl s
  · exact .refl s

theorem effect_readWindowClose (ref : BagRef) (s : State) :
    Answers (execReadWindowClose ref s) (Effect belt s) := by
  refine answers_next ?_
  split
  · split
    · exact effect_closeWindow _ s
    · exact .refl s
  · exact .refl s

/-! ## Outlets -/

theorem effect_arming (ref : BagRef) (s : State) : Answers (execArming ref s) (Effect belt s) := by
  refine answers_next ?_
  split
  · exact effect_settleArming ref s
  · exact .refl s

theorem effect_fire (ref : BagRef) (s : State) : Answers (execFire ref s) (Effect belt s) := by
  refine answers_next ?_
  split
  · rename_i r hr
    split
    · split
      · exact effect_takeFire _ (by rw [hr]; rfl)
      · exact .refl s
    · exact .refl s
  · exact .refl s

theorem effect_dwellExpiry (k : OutletNo) (s : State) :
    Answers (execDwellExpiry k s) (Effect belt s) := by
  refine answers_next ?_
  dsimp only
  split
  · refine effect_mapOutlet k (fun o ho => ?_) s
    split <;> exact ho
  · exact .refl s

theorem effect_homeTimeout (k : OutletNo) (s : State) :
    Answers (execHomeTimeout k s) (Effect belt s) := by
  refine answers_next ?_
  dsimp only
  split
  · exact effect_mapOutlet k (by exact fun _ ho => ho) s
  · exact .refl s

theorem homeEdge_fill (asserted : Bool) (o : Outlet) : (homeEdge asserted o).fill = o.fill := by
  unfold homeEdge
  split <;> rfl

theorem effect_homeSensorEdge (k : OutletNo) (asserted : Bool) (s : State) :
    Answers (execHomeSensorEdge k asserted s) (Effect belt s) := by
  refine answers_next ?_
  split
  · refine effect_mapOutlet k (fun o ho => ?_) s
    dsimp only
    split
    · rw [homeEdge_fill]
      exact ho
    · exact ho
  · exact .refl s

theorem effect_raiseFill (k : OutletNo) (s : State) : Effect belt s (raiseFill k s) := by
  unfold raiseFill
  dsimp only
  split
  · exact .refl s
  · rename_i hfill
    have h : Effect belt s
        (s.mapOutlet k fun o => { o with fill := (s.outlets.get k).fill + 1 }) := by
      refine effect_mapOutlet k (fun o _ => ?_) s
      exact Nat.lt_of_not_le hfill
    split
    · exact h.trans (effect_mapFlags _ _)
    · exact h

theorem effect_confirm (k : OutletNo) (r : Record) (s : State) : Effect true s (confirm k r s) := by
  have h : Effect true s (bump (.delivered k) (leaveTable r.ref s)) :=
    (effect_leaveTable _ s).trans (effect_bump _ _)
  unfold confirm
  dsimp only
  split
  · exact h.trans ((effect_bump _ _).trans (effect_queueNotice _ _))
  · exact h

theorem effect_chuteEntry (k : OutletNo) (s : State) :
    Answers (execChuteEntry k s) (Effect true s) := by
  have h : Effect true s (chuteEntry k s) := by
    unfold chuteEntry
    split
    · split
      · exact effect_confirm _ _ s
      · exact effect_bump _ s
    · exact effect_bump _ s
  refine answers_next ?_
  split
  · exact h.trans ((effect_raiseFill _ _).trans (effect_arbitrate_decidePermit _))
  · exact .refl s

theorem effect_confirmTimeout (ref : BagRef) (s : State) :
    Answers (execConfirmTimeout ref s) (Effect true s) := by
  refine answers_next ?_
  split
  · rename_i r hr
    split
    · refine .trans ?_ (effect_arbitrate_decidePermit _)
      have hin : (inTable (endDiverting r.ref s) r.ref).isSome = true := by
        rw [inTable_ref hr]
        exact Option.isSome_iff_exists.mpr ⟨r, hr⟩
      have hmiss : Effect true s (refuse .pushMiss r.ref (endDiverting r.ref s)) :=
        .trans (effect_mapOutlets (by exact fun _ => rfl) s) (effect_refuse _ hin)
      unfold pushMiss
      dsimp only
      split
      · refine hmiss.trans (effect_becomeExiting ?_)
        rw [refuse, (sameRefs_bump _ _).inTable_isSome,
          (sameRefs_updateRecord r.ref (fun _ => by rfl)).inTable_isSome]
        exact hin
      · exact hmiss
    · exact .refl s
  · exact .refl s

theorem effect_cartSwap (k : OutletNo) (s : State) : Answers (execCartSwap k s) (Effect belt s) := by
  refine answers_next ?_
  split
  · exact effect_mapOutlet k (fun _ _ => Nat.zero_le _) s
  · exact .refl s

theorem effect_cartRemoval (k : OutletNo) (s : State) :
    Answers (execCartRemoval k s) (Effect belt s) := by
  refine answers_next ?_
  split
  · exact effect_mapOutlet k (by exact fun _ ho => ho) s
  · exact .refl s

theorem effect_holdSwitchChange (k : OutletNo) (on : Bool) (s : State) :
    Answers (execHoldSwitchChange k on s) (Effect belt s) := by
  refine answers_next ?_
  split
  · exact effect_mapOutlet k (by exact fun _ ho => ho) s
  · exact .refl s

/-! ## Offer point and segment exit -/

theorem effect_offerPoint (ref : BagRef) (s : State) :
    Answers (execOfferPoint ref s) (Effect true s) := by
  refine answers_next ?_
  split
  · rename_i r hr
    split
    · exact (effect_takeOfferPoint (by rw [inTable_ref hr, hr]; rfl)).trans
        (effect_arbitrate_decidePermit _)
    · exact .refl s
  · exact .refl s

theorem effect_segmentExit (ref : BagRef) (s : State) :
    Answers (execSegmentExit ref s) (Effect true s) := by
  refine answers_next ?_
  split
  · split
    · exact (effect_takeExit ref s).trans (effect_arbitrate_decidePermit _)
    · exact .refl s
  · exact .refl s

end

end Sys2Proof.Machine

/-! # Effects of the line's commands -/

namespace Sys2Proof.Machine

section
variable {belt : Bool} {s : State}

/-! ## The receiver -/

/-- The receiver takes a state with a buffer that agrees with it. -/
theorem effect_setReceiver {r : Receiver} {buffer : List Byte}
    (hon : s.line.receiver ≠ .off) (hbody : r = .body →
      BufferAgrees s → 1 ≤ buffer.length ∧ buffer.length ≤ 32
        ∧ ∀ n, buffer[3]? = some n → buffer.length < n.toNat + 5)
    (hother : r ≠ .body → BufferAgrees s → buffer = []) : Effect belt s (setReceiver r buffer s) := by
  refine .ofLine rfl id id fun hs => ?_
  obtain ⟨hreset, hquiet, hagrees, hbuf⟩ := hs
  refine ⟨hreset, fun hn => absurd (hquiet hn).1 hon, hagrees, fun h => hbody h hbuf,
    fun h => hother h hbuf⟩

theorem effect_endFrame (hon : s.line.receiver ≠ .off) : Effect belt s (endFrame s) :=
  effect_setReceiver hon nofun fun _ _ => rfl

theorem receiver_on_of_headInProgress {h : Byte} (e : headInProgress s = some h) :
    s.line.receiver ≠ .off := by
  rw [(headInProgress_eq_some e).1]
  simp

theorem goodFrame_eq_some {body : List Byte} {f : InFrame} (hf : goodFrame s body = some f) :
    ∃ h, headInProgress s = some h ∧ bodyEnds (bodyWith s body) = true
      ∧ testFrame h (bodyWith s body) = some f := by
  unfold goodFrame at hf
  split at hf
  · cases hf
  · split at hf
    · exact ⟨_, ‹_›, ‹_›, hf⟩
    · cases hf

theorem handedFrame_eq_some {k : FrameKind} {body : List Byte} {f : InFrame}
    (hf : handedFrame s k body = some f) :
    goodFrame s body = some f ∧ f.kind = k ∧ f.source ≠ s.start.station := by
  unfold handedFrame at hf
  split at hf
  · cases hf
  · split at hf
    · rename_i hc
      cases hf
      exact ⟨‹_›, hc.1, hc.2⟩
    · cases hf

theorem receiver_on_of_goodFrame {body : List Byte} {f : InFrame} (hf : goodFrame s body = some f) :
    s.line.receiver ≠ .off := by
  obtain ⟨h, he, -⟩ := goodFrame_eq_some hf
  exact receiver_on_of_headInProgress he

theorem effect_endFrame_of_handed {k : FrameKind} {body : List Byte} {f : InFrame}
    (hf : handedFrame s k body = some f) : Effect belt s (endFrame s) :=
  effect_endFrame (receiver_on_of_goodFrame (handedFrame_eq_some hf).1)

theorem effect_takeHead (b : Byte) (hon : s.line.receiver ≠ .off) : Effect belt s (takeHead b s) := by
  unfold takeHead
  split
  · exact (effect_endFrame hon).trans (effect_bump _ _)
  · split
    · exact effect_setReceiver hon (fun _ _ => by simp) (by simp)
    · exact effect_setReceiver hon nofun fun _ _ => rfl

theorem effect_receiveHead (b : Byte) (s : State) : Effect belt s (receiveHead b s) := by
  unfold receiveHead
  split
  · exact .refl s
  · rename_i hbody
    exact (effect_endFrame (by simp [hbody])).trans
      ((effect_bump _ _).trans (effect_takeHead b (by simp [endFrame])))
  · exact effect_takeHead b (by simp [*])
  · exact effect_takeHead b (by simp [*])

theorem effect_characterError (c : LineChar) (s : State) :
    Answers (execCharacterError c s) (Effect belt s) := by
  refine answers_next ?_
  split
  · rename_i h
    exact (effect_endFrame h.1).trans (effect_bump _ _)
  · exact .refl s

theorem effect_receiveOverrun (body : List Byte) (s : State) :
    Answers (execReceiveOverrun body s) (Effect belt s) := by
  refine answers_next ?_
  split
  · rename_i h
    obtain ⟨hd, he⟩ := Option.isSome_iff_exists.mp h.1
    exact (effect_endFrame (receiver_on_of_headInProgress he)).trans (effect_bump _ _)
  · exact .refl s

theorem effect_badFrame (body : List Byte) (s : State) :
    Answers (execBadFrame body s) (Effect belt s) := by
  refine answers_next ?_
  split
  · rename_i h
    unfold badFrameEnds at h
    split at h
    · cases h
    · exact (effect_endFrame (receiver_on_of_headInProgress ‹_›)).trans (effect_bump _ _)
  · exact .refl s

theorem effect_unactedFrame (body : List Byte) (s : State) :
    Answers (execUnactedFrame body s) (Effect belt s) := by
  refine answers_next ?_
  split
  · split
    · exact effect_endFrame (receiver_on_of_goodFrame ‹_›)
    · exact .refl s
  · exact .refl s

/-! ## Induction -/

theorem effect_answer (f : OutFrame) (s : State) : Effect belt s (arbitrate (queueAnswer f s)) :=
  (effect_queueAnswer f s).trans (effect_arbitrate _)

theorem effect_codeReceived (body : List Byte) (s : State) :
    Answers (execCodeReceived body s) (Effect belt s) := by
  refine answers_next ?_
  split
  · rename_i f hf
    split
    · refine (effect_endFrame_of_handed hf).trans ?_
      unfold takeCode
      dsimp only
      split
      · exact effect_bump _ _
      · split
        · exact effect_bump _ _
        · split
          · exact effect_answer _ _
          · split
            · exact effect_bump _ _
            · split
              · exact effect_answer _ _
              · rename_i hroom
                refine .trans (.codes _ _ fun _ => ?_) (effect_answer _ _)
                simp [Config.codeCapacity] at hroom ⊢
                omega
    · exact .refl s
  · exact .refl s

theorem effect_hearFrom (f : InFrame) (value : Nat) (sound : Bool) (s : State) :
    Effect true s (hearFrom f value sound s) := by
  unfold hearFrom
  split
  · split
    · exact .trans (.crowdView s _ s.induction.permit rfl) (effect_decidePermit _)
    · exact effect_bump _ s
  · exact .refl s

theorem effect_crowdReceived (body : List Byte) (s : State) :
    Answers (execCrowdReceived body s) (Effect true s) := by
  refine answers_next ?_
  split
  · rename_i f hf
    dsimp only
    split
    · exact (effect_endFrame_of_handed hf).trans (effect_hearFrom _ _ _ _)
    · exact effect_endFrame_of_handed hf
  · exact .refl s

theorem effect_statusReceived (body : List Byte) (s : State) :
    Answers (execStatusReceived body s) (Effect true s) := by
  refine answers_next ?_
  split
  · rename_i f hf
    dsimp only
    split
    · exact (effect_endFrame_of_handed hf).trans (effect_hearFrom _ _ _ _)
    · exact effect_endFrame_of_handed hf
  · exact .refl s

theorem effect_silenceTimeout (n : Nat) (s : State) :
    Answers (execSilenceTimeout n s) (Effect true s) := by
  refine answers_next ?_
  split
  · exact .trans (.crowdView s _ s.induction.permit rfl) (effect_decidePermit _)
  · exact .refl s

/-! ## Supervision and FAULT -/

theorem effect_takeCommand {act : State → State} (f : InFrame) (malformed : Bool) (s : State)
    (hact : Effect belt s (act s)) : Effect belt s (takeCommand f malformed act s) := by
  unfold takeCommand
  split
  · exact effect_bump _ s
  · split
    · exact effect_bump _ s
    · split
      · exact effect_bump _ s
      · exact hact

theorem effect_askStatus (body : List Byte) (s : State) :
    Answers (execAskStatus body s) (Effect belt s) := by
  refine answers_next ?_
  split
  · rename_i f hf
    split
    · exact (effect_endFrame_of_handed hf).trans (effect_takeCommand _ _ _ (effect_answer _ _))
    · exact .refl s
  · exact .refl s

theorem effect_askCounts (body : List Byte) (s : State) :
    Answers (execAskCounts body s) (Effect belt s) := by
  refine answers_next ?_
  split
  · rename_i f hf
    dsimp only
    split
    · exact (effect_endFrame_of_handed hf).trans (effect_takeCommand _ _ _ (effect_answer _ _))
    · exact .refl s
  · exact .refl s

theorem effect_setLineHolds (q : Quad Bool) (s : State) : Effect belt s (setLineHolds q s) := by
  refine .outlets s _ fun k hk => ?_
  match k with
  | 0 => exact hk
  | 1 => exact hk
  | 2 => exact hk
  | 3 => exact hk

theorem effect_takeHold (op : Nat) (body : List Byte) (s : State) :
    Effect belt s (takeHold op body s) := by
  unfold takeHold
  split
  · rename_i f hf
    dsimp only
    split
    · split
      · exact (effect_endFrame_of_handed hf).trans (effect_takeCommand _ _ _
          ((effect_setLineHolds _ _).trans (effect_answer _ _)))
      · exact effect_endFrame_of_handed hf
    · exact .refl s
  · exact .refl s

theorem effect_zero (body : List Byte) (s : State) : Answers (execZero body s) (Effect belt s) := by
  refine answers_next ?_
  split
  · rename_i f hf
    dsimp only
    split
    · exact (effect_endFrame_of_handed hf).trans (effect_takeCommand _ _ _
        ((effect_zeroCounters _).trans (effect_answer _ _)))
    · exact effect_endFrame_of_handed hf
  · exact .refl s

theorem effect_statusTimerExpiry (s : State) : Answers (execStatusTimerExpiry s) (Effect belt s) := by
  refine answers_next ?_
  split
  · have hstart : Effect belt s (s.mapSupervision fun u => { u with statusTimer := some 0 }) :=
      .supervision s _ rfl fun _ => id
    refine hstart.trans (.trans ?_ (effect_arbitrate _))
    split
    · rename_i hno
      refine .ofLine rfl id id fun hs => ?_
      obtain ⟨hreset, hquiet, ⟨hheld, hdue, hrest⟩, hbuf⟩ := hs
      refine ⟨hreset, hquiet, ⟨hheld, ?_, hrest⟩, hbuf⟩
      refine ⟨nofun, fun h => ?_⟩
      have hheldStatus := hdue.mpr h
      rw [hno] at hheldStatus
      cases hheldStatus
    · exact .refl _
  · exact .refl s

theorem effect_takeInFault {act : InFrame → State → State} (k : FrameKind) (body : List Byte)
    (s : State) (hact : ∀ f t, Effect belt t (act f t)) : Effect belt s (takeInFault k body act s) := by
  unfold takeInFault
  split
  · rename_i f hf
    split
    · dsimp only
      split
      · exact (effect_endFrame_of_handed hf).trans (hact f _)
      · exact effect_endFrame_of_handed hf
    · exact .refl s
  · exact .refl s

theorem effect_faultAskAnswer (f : InFrame) (s : State) : Effect belt s (faultAskAnswer f s) := by
  unfold faultAskAnswer
  dsimp only
  split
  · exact effect_answer _ _
  · split
    · exact effect_answer _ _
    · exact effect_bump _ s

/-! ## Attempts and answers -/

theorem effect_replyWindowExpiry (s : State) : Answers (execReplyWindowExpiry s) (Effect belt s) := by
  refine answers_next ?_
  split
  · rename_i n hstage
    refine (effect_bump _ s).trans (effect_afterAttempt ?_)
    simp [offerStage, Option.map_eq_some_iff] at hstage ⊢
    obtain ⟨o, ho, hlisten⟩ := hstage
    simp [ho, hlisten]
  · exact .refl s

theorem effect_repeatIntervalExpiry (s : State) :
    Answers (execRepeatIntervalExpiry s) (Effect belt s) := by
  refine answers_next ?_
  split
  · rename_i n hstage
    exact (effect_setStage_of_not_onLine (by simp [hstage])).trans (effect_arbitrate _)
  · exact .refl s

theorem effect_takeAnswer {act : BagRef → State → State} (k : FrameKind) (body : List Byte) (s : State)
    (hact : ∀ ref t, Effect belt t (act ref t)) : Effect belt s (takeAnswer k body act s) := by
  unfold takeAnswer
  split
  · rename_i f hf
    refine (effect_endFrame_of_handed hf).trans ?_
    dsimp only
    split
    · split
      · split
        · exact hact _ _
        · exact .refl _
      · exact effect_bump _ _
    · exact .refl _
  · exact .refl s

theorem effect_waitAnswer (s : State) : Effect belt s (waitAnswer s) := by
  unfold waitAnswer
  split
  · rename_i n hstage
    exact effect_afterAttempt (by simp [hstage])
  · exact .refl s

theorem effect_spurnAnswer (ref : BagRef) (s : State) : Effect true s (spurnAnswer ref s) := by
  unfold spurnAnswer
  refine (effect_bump .spurnedOffers s).trans ?_
  dsimp only
  split
  · split
    · exact effect_endOfferFrame_outbound (fun o => o.map fun o => { o with stage := .spent }) _
    · exact effect_leaveTable _ _
  · exact .refl _

theorem effect_takeReceived (body : List Byte) (s : State) :
    Answers (execTakeReceived body s) (Effect true s) :=
  answers_next (effect_takeAnswer _ _ _ fun ref t =>
    (effect_leaveTable ref t).trans (effect_arbitrate_decidePermit _))

theorem effect_waitReceived (body : List Byte) (s : State) :
    Answers (execWaitReceived body s) (Effect belt s) :=
  answers_next (effect_takeAnswer _ _ _ fun _ t => effect_waitAnswer t)

theorem effect_spurnReceived (body : List Byte) (s : State) :
    Answers (execSpurnReceived body s) (Effect true s) :=
  answers_next (effect_takeAnswer _ _ _ fun ref t =>
    (effect_spurnAnswer ref t).trans (effect_arbitrate_decidePermit _))

/-! ## The transmitter -/

theorem lineKept_idleBits (n : Nat) (hs : LineKept s) : LineKept (s.mapLine (idleBits n)) := by
  obtain ⟨hreset, hquiet, ⟨hheld, hdue, hback, hwait⟩, hbuf⟩ := hs
  refine ⟨hreset, fun hn => ?_, ⟨?_, ?_, ?_, ?_⟩, hbuf⟩
  · obtain ⟨hoff, hidle⟩ := hquiet hn
    simp [idleBits, hoff, hidle]
  · simpa using hheld
  · simpa using hdue
  · intro x len count hx
    cases htr : s.line.transmitter <;> simp only [mapLine_line, idleBits, htr] at hx <;> cases hx
    obtain ⟨hlen, -, hcol⟩ := hback _ _ _ htr
    exact ⟨hlen, Nat.min_le_left _ _, hcol⟩
  · intro x hx
    cases htr : s.line.transmitter <;> simp only [mapLine_line, idleBits, htr] at hx <;> cases hx
    exact hwait x htr

theorem effect_idleBits (n : Nat) (s : State) : Effect belt s (s.mapLine (idleBits n)) :=
  .ofLineAlone rfl id id (lineKept_idleBits n)

/-- The frame that the transmitter holds may stand in WAIT-GAP, where it is no OFFER frame that waits
for its first gap. -/
theorem lineKept_enterWaitGap {h : HeldFrame} (hs : LineKept s)
    (hheld : heldFrame s.line.transmitter = some h)
    (hwait : h.source = .offer → h.collisions = 0 → offerStage s = some .onLine) :
    LineKept (enterWaitGap h s) := by
  obtain ⟨hans, hnot, hcol⟩ := hs.2.2.1.1 h hheld
  obtain ⟨hrec, hbuf, hanswers, hnotices⟩ := enterWaitGap_line_rest h s
  refine lineKept_of_held hs (by simp) (not_start_of_held hs hheld) hrec hbuf
    (heldFrame_enterWaitGap h s) (by rwa [hanswers]) (by rwa [hnotices]) hcol ?_ ?_ ?_
  · rw [(enterWaitGap_rest s h).2.2.2.2.2.2.1, hs.2.2.1.2.1, hheld]
    simp
  · intro len count hb
    rcases enterWaitGap_transmitter h s with e | e <;> simp [e] at hb
  · intro _ hsrc hc
    simpa [offerStage] using hwait hsrc hc

theorem effect_enterWaitGap {h : HeldFrame} (hheld : heldFrame s.line.transmitter = some h)
    (hwait : LineKept s → h.source = .offer → h.collisions = 0 → offerStage s = some .onLine) :
    Effect belt s (enterWaitGap h s) := by
  obtain ⟨-, -, hanswers, hnotices⟩ := enterWaitGap_line_rest h s
  refine .ofLineAlone rfl (fun hl => by rwa [hanswers]) (fun hl => by rwa [hnotices])
    fun hs => lineKept_enterWaitGap hs hheld (hwait hs)

theorem effect_gapReached (s : State) : Answers (execGapReached s) (Effect belt s) := by
  refine answers_next ?_
  split
  · rename_i h htr
    refine (effect_idleBits _ s).trans (effect_enterWaitGap ?_ fun hs hsrc hcol => ?_)
    · rw [mapLine_line, heldFrame_idleBits, htr]
      rfl
    · refine hs.2.2.1.2.2.2 h ?_ hsrc hcol
      simp [idleBits, htr]
  · exact .refl s

theorem effect_backoffEnd (s : State) : Answers (execBackoffEnd s) (Effect belt s) := by
  refine answers_next ?_
  split
  · rename_i h len count htr
    refine (effect_idleBits _ s).trans (effect_enterWaitGap ?_ fun hs _ hcol => ?_)
    · rw [mapLine_line, heldFrame_idleBits, htr]
      rfl
    · have hback := hs.2.2.1.2.2.1 h len (min len (count + (len - count))) (by simp [idleBits, htr])
      omega
  · exact .refl s

/-- A frame leaves the transmitter, and the answer or notice leaves its queue. -/
theorem statusDue_ne_held_of_source {h : HeldFrame} (hs : LineKept s)
    (htr : heldFrame s.line.transmitter = some h) (hsrc : h.source ≠ .status) :
    s.supervision.statusDue ≠ .held := by
  intro hheld
  obtain ⟨x, hx, hstatus⟩ := hs.2.2.1.2.1.mp hheld
  cases htr.symm.trans hx
  exact hsrc hstatus

theorem effect_releaseTransmitter {h : HeldFrame} (htr : heldFrame s.line.transmitter = some h)
    (hsrc : h.source ≠ .status) : Effect belt s (releaseTransmitter h.source s) :=
  .ofLineAlone rfl id id fun hs =>
    have hdue := statusDue_ne_held_of_source hs htr hsrc
    lineKept_of_idle (s := s) hs rfl rfl rfl rfl hdue

/-- A STATUS leaves the transmitter and is due no longer. -/
theorem effect_releaseStatus (src : FrameSource) (s : State) :
    Effect belt s (setStatusDue .notDue (releaseTransmitter src s)) :=
  .ofLine rfl id id fun hs => lineKept_of_idle hs rfl rfl rfl rfl nofun

theorem statusDue_ne_held_of_idle (h : s.line.transmitter = .idle) (hs : LineKept s) :
    s.supervision.statusDue ≠ .held := by
  intro hheld
  obtain ⟨x, hx, -⟩ := hs.2.2.1.2.1.mp hheld
  rw [h] at hx
  cases hx

theorem effect_popAnswer (h : s.line.transmitter = .idle) : Effect belt s (popAnswer s) :=
  .ofLineAlone rfl (fun hl => (List.tail_sublist _).length_le.trans hl) id fun hs =>
    have hdue := statusDue_ne_held_of_idle h hs
    lineKept_of_idle (s := s) hs rfl rfl rfl h hdue

theorem effect_popNotice (h : s.line.transmitter = .idle) : Effect belt s (popNotice s) :=
  .ofLineAlone rfl id (fun hl => (List.tail_sublist _).length_le.trans hl) fun hs =>
    have hdue := statusDue_ne_held_of_idle h hs
    lineKept_of_idle (s := s) hs rfl rfl rfl h hdue

theorem effect_setStage_of_idle {stage : OfferStage} (h : s.line.transmitter = .idle) :
    Effect belt s (setStage stage s) :=
  effect_setStage fun x hx => by rw [h] at hx; cases hx

theorem effect_countAttempt (s : State) : Effect belt s (countAttempt s) := by
  refine .ofLine rfl id id fun hs => lineKept_congr hs rfl ?_ rfl rfl
  cases ho : s.handoff.outbound <;> simp [offerStage, countAttempt, ho]

theorem effect_offerSent (h : s.line.transmitter = .idle) : Effect belt s (offerSent s) := by
  unfold offerSent
  split
  · exact (effect_countAttempt s).trans (effect_setStage_of_idle h)
  · exact .refl s

theorem effect_offerLost (h : s.line.transmitter = .idle) : Effect belt s (offerLost s) := by
  unfold offerLost
  split
  · refine (effect_countAttempt s).trans ((effect_bump .noAnswers _).trans ?_)
    unfold afterAttempt
    split
    · exact effect_setStage_of_idle (by simpa using h)
    · exact .refl _
  · exact .refl s

theorem effect_frameSent (s : State) : Answers (execFrameSent s) (Effect belt s) := by
  refine answers_next ?_
  split
  · rename_i h htr
    refine .trans ?_ (effect_arbitrate _)
    have hheld : heldFrame s.line.transmitter = some h := by rw [htr]; rfl
    cases hsrc : h.source with
    | status => exact effect_releaseStatus _ s
    | answer =>
      exact .trans (hsrc ▸ effect_releaseTransmitter hheld (by simp [hsrc])) (effect_popAnswer rfl)
    | notices =>
      exact .trans (hsrc ▸ effect_releaseTransmitter hheld (by simp [hsrc])) (effect_popNotice rfl)
    | offer =>
      exact .trans (hsrc ▸ effect_releaseTransmitter hheld (by simp [hsrc])) (effect_offerSent rfl)
  · exact .refl s

theorem bumpOutsideFault_setStatusDue (c : Counter) (d : DueStatus) (s : State) :
    bumpOutsideFault c (setStatusDue d s) = setStatusDue d (bumpOutsideFault c s) := by
  unfold bumpOutsideFault
  simp only [setStatusDue_rest, bump_eq]
  split <;> rfl

theorem effect_enterBackoff {h : HeldFrame} (htr : s.line.transmitter = .sending h)
    (hcol : h.collisions + 1 < 16) : Effect belt s (enterBackoff h s) := by
  have hheld : heldFrame s.line.transmitter = some h := by rw [htr]; rfl
  refine .ofLineAlone rfl id id fun hs => ?_
  obtain ⟨hans, hnot, -⟩ := hs.2.2.1.1 h hheld
  refine lineKept_of_held hs rfl (not_start_of_held hs hheld) rfl rfl
    (h := { h with collisions := h.collisions + 1 }) rfl hans hnot hcol ?_ ?_ nofun
  · change s.supervision.statusDue = .held ↔ _
    rw [hs.2.2.1.2.1, hheld]
    simp
  · rintro len count hb
    cases hb
    exact ⟨rfl, Nat.zero_le _, Nat.succ_le_succ (Nat.zero_le _)⟩

theorem effect_collision (s : State) : Answers (execCollision s) (Effect belt s) := by
  refine answers_next ?_
  split
  · rename_i h htr
    have htr' : (bumpOutsideFault .collisions s).line.transmitter = .sending h := by simp [htr]
    refine (effect_bumpOutsideFault .collisions s).trans ?_
    dsimp only
    split
    · exact effect_enterBackoff htr' ‹_›
    · refine .trans ?_ (effect_arbitrate _)
      have hheld : heldFrame (bumpOutsideFault .collisions s).line.transmitter = some h := by
        rw [htr']
        rfl
      have hidle : ∀ src t, (bumpOutsideFault .lineAborts (releaseTransmitter src t)).line.transmitter
          = .idle := fun src t => by simp [releaseTransmitter]
      have hrelease : h.source ≠ .status → Effect belt (bumpOutsideFault .collisions s)
          (bumpOutsideFault .lineAborts (releaseTransmitter h.source (bumpOutsideFault .collisions s))) :=
        fun hsrc => (effect_releaseTransmitter hheld hsrc).trans (effect_bumpOutsideFault _ _)
      cases hsrc : h.source with
      | status =>
        rw [tellAborted, ← bumpOutsideFault_setStatusDue]
        exact (effect_releaseStatus _ _).trans (effect_bumpOutsideFault _ _)
      | answer => exact .trans (hsrc ▸ hrelease (by simp [hsrc])) (effect_popAnswer (hidle _ _))
      | notices => exact .trans (hsrc ▸ hrelease (by simp [hsrc])) (effect_popNotice (hidle _ _))
      | offer => exact .trans (hsrc ▸ hrelease (by simp [hsrc])) (effect_offerLost (hidle _ _))
  · exact .refl s

end

end Sys2Proof.Machine

/-! # Effects of offers from upstream, resolutions, CABIN entries and the characters of the line -/

namespace Sys2Proof.Machine

section
variable {belt : Bool} {s : State}

/-! ## Offers from upstream -/

/-- A request for a record outside the expected list concerns the Resolution Unit alone (R52). -/
theorem raiseRequest_eq_resolution {ref : BagRef} (h : inExpected s ref = none) :
    raiseRequest ref s = { s with resolution := (raiseRequest ref s).resolution } := by
  unfold raiseRequest
  rw [h]
  simp only [Option.isSome_none, Bool.false_eq_true, if_false]
  split
  · rfl
  · rw [startResolution_eq]
    rfl

theorem raiseRequest_exceptions (ref : BagRef) (s : State) :
    (raiseRequest ref s).resolution.exceptions = s.resolution.exceptions
      ∧ (raiseRequest ref s).resolution.cabinEntries = s.resolution.cabinEntries := by
  unfold raiseRequest
  split
  · simp
  · split
    · exact ⟨rfl, rfl⟩
    · obtain ⟨he, hc⟩ := startResolution_exceptions
        (s.mapResolution fun u => { u with requests := u.requests ++ [ref] })
      exact ⟨he, hc⟩

/-- A change of a record outside the expected list that also raises a request: the Resolution Unit may
change first. -/
theorem effect_request_before_update {ref : BagRef} {f : Record → Record}
    (hf : ∀ r, (f r).ref = r.ref) (hheld : (heldRecord s ref).isSome = true)
    (hexp : inExpected s ref = none) :
    ∃ u : ResolutionUnit, Effect belt s { s with resolution := u }
      ∧ raiseRequest ref (updateRecord ref f s) = updateRecord ref f { s with resolution := u } := by
  have hexp' : inExpected (updateRecord ref f s) ref = none := by
    rw [inExpected_updateRecord_same hf, hexp]
    rfl
  have hheld' : (heldRecord (updateRecord ref f s) ref).isSome = true := by
    rwa [(sameRefs_updateRecord ref hf).heldRecord_isSome]
  have hsame := sameRefs_updateRecord (s := s) ref hf
  have heq := raiseRequest_eq_resolution hexp'
  refine ⟨(raiseRequest ref (updateRecord ref f s)).resolution, .ofResolution rfl ?_ fun h => ?_, heq⟩
  · exact (raiseRequest_exceptions ref _).1
  · have hupdated : RequestsInOrder (updateRecord ref f s) :=
      requestsInOrder_of_refs h rfl fun x => by
        rw [hsame.inTable_isSome, hsame.inPendingOffers_isSome]
        exact id
    have hraised := (effect_raiseRequest (belt := true) hheld').keeps_requests hupdated
    refine requestsInOrder_of_refs hraised rfl fun x => ?_
    have hsame' := hsame.trans (sameRefs_raiseRequest ref _)
    rw [hsame'.inTable_isSome, hsame'.inPendingOffers_isSome]
    exact id

theorem sameRefs_updateOffer (o : Offered) (r : Record) (s : State) :
    SameRefs s (updateOffer o r s) := by
  have hupdate : SameRefs s (updateRecord r.ref (takeOffered o) s) :=
    sameRefs_updateRecord _ fun _ => rfl
  unfold updateOffer
  dsimp only
  split <;> split
  · exact hupdate.trans ((sameRefs_raiseRequest _ _).trans (sameRefs_lapCheck _ _))
  · exact hupdate.trans (sameRefs_lapCheck _ _)
  · exact hupdate.trans (sameRefs_raiseRequest _ _)
  · exact hupdate

theorem heldRecord_of_inPendingOffers {ref : BagRef} {r : Record} (hr : inPendingOffers s ref = some r)
    (htab : inTable s ref = none) : heldRecord s ref = some r := by
  rw [heldRecord, htab, hr]

theorem effect_updateOffer {o : Offered} {r : Record} (hr : inPendingOffers s r.ref = some r)
    (htab : inTable s r.ref = none) (hexp : inExpected s r.ref = none) :
    Effect belt s (updateOffer o r s) := by
  have hheld := heldRecord_of_inPendingOffers hr htab
  have href : ∀ x, (takeOffered o x).ref = x.ref := fun _ => rfl
  have hlapped : ∀ u : ResolutionUnit, Effect belt { s with resolution := u }
      (lapCheck r.ref (updateRecord r.ref (takeOffered o) { s with resolution := u })) := fun u =>
    effect_lapCheck_updateRecord href (fun _ => rfl) (fun _ => ⟨rfl, rfl⟩) _
  have hplain : (decide (o.stray.isSome ≠ r.stray.isSome) || decide (o.laps ≠ r.laps)) ≠ true →
      ∀ u : ResolutionUnit, Effect belt { s with resolution := u }
        (updateRecord r.ref (takeOffered o) { s with resolution := u }) := by
    intro hsame u
    simp only [ne_eq, Bool.or_eq_true, decide_eq_true_eq, not_or, not_not] at hsame
    refine .update _ r.ref _ (.of_held href (fun _ => rfl) fun _ x hx hlaps => ?_)
      fun _ _ => ⟨rfl, rfl⟩
    cases hheld.symm.trans hx
    intro hle
    have hstray := hlaps (hsame.2 ▸ hle)
    rw [← Option.isSome_iff_ne_none, ← hsame.1] at hstray
    exact Option.isSome_iff_ne_none.mp hstray
  unfold updateOffer
  dsimp only
  obtain ⟨u, hu, heq⟩ := effect_request_before_update (belt := belt) href (by rw [hheld]; rfl) hexp
  rw [heq]
  split
  · split
    · exact hu.trans (hlapped u)
    · exact hlapped s.resolution
  · split
    · exact hu.trans (hplain ‹_› u)
    · exact hplain ‹_› s.resolution

theorem effect_moveToExpected {ref : BagRef} (hroom : s.handoff.expected.length < 8) :
    Effect belt s (moveToExpected ref s) := by
  unfold moveToExpected
  split
  · exact .refl s
  · rename_i r hr
    have href := inPendingOffers_ref hr
    subst href
    refine .trans (.expect s r (expectedRecord (ahead s.position.counter s.image.expectDistance)
      (decide (r.ref ∈ s.resolution.requests)) r) hr hroom rfl rfl fun h => h) ?_
    exact effect_duplicateCheck _ _

theorem effect_enterOffer {o : Offered} (hrun : s.start.node = .run)
    (hopen : s.start.clearHeld = false) (hroom : s.handoff.pendingOffers.length < 4)
    (hfree : heldRecord s o.ref = none) : Effect belt s (enterOffer o s) := by
  refine .trans (.enter s (pendingRecord { o with stray := entryMark s o }) hrun hopen hroom hfree rfl
    fun hlaps => ?_) (effect_raiseRequest ?_)
  · show entryMark s o ≠ none
    unfold entryMark
    split
    · simp
    · rename_i h
      exact fun hnone => h ⟨hnone, hlaps⟩
  · rw [heldRecord_isSome]
    simp [inPendingOffers, findIn_isSome, pendingRecord]

theorem effect_answerOffer (o : Offered) (hrun : s.start.node = .run) :
    Effect belt s (answerOffer o s).1 := by
  unfold answerOffer
  split
  · exact .refl s
  · rename_i hheld
    simp only [Bool.or_eq_true, not_or, Bool.not_eq_true, Option.isSome_eq_false_iff,
      Option.isNone_iff_eq_none] at hheld
    obtain ⟨htab, hexp⟩ := hheld
    split
    · rename_i r hr
      have href := inPendingOffers_ref hr
      rw [← href] at htab hexp hr
      have hupdate : Effect belt s (updateOffer o r s) := effect_updateOffer hr htab hexp
      dsimp only
      split
      · split
        · rename_i hroom
          refine hupdate.trans (effect_moveToExpected ?_)
          have hlen := congrArg List.length (sameRefs_updateOffer o r s).2.2
          simp only [List.length_map] at hlen
          rw [hlen]
          exact hroom
        · refine hupdate.trans ?_
          exact .update _ _ _ (.of_state (fun _ => rfl) (fun _ => rfl) fun _ => id)
            fun _ _ => ⟨rfl, rfl⟩
      · exact hupdate
    · rename_i hpend
      split
      · rename_i hroom
        exact effect_enterOffer hrun hroom.2 hroom.1 (by rw [heldRecord, htab, hpend, hexp])
      · exact .refl s

theorem effect_offerReceived (body : List Byte) (s : State) :
    Answers (execOfferReceived body s) (Effect belt s) := by
  refine answers_next ?_
  split
  · rename_i f hf
    split
    · rename_i hrun
      refine (effect_endFrame_of_handed hf).trans ?_
      dsimp only
      split
      · exact effect_bump _ _
      · split
        · exact effect_bump _ _
        · rename_i o _
          exact (effect_answerOffer o (s := endFrame s) (of_decide_eq_true hrun)).trans
            (effect_answer _ _)
    · exact .refl s
  · exact .refl s

theorem effect_discardTimeout (ref : BagRef) (s : State) :
    Answers (execDiscardTimeout ref s) (Effect belt s) := by
  refine answers_next ?_
  split
  · rename_i r hr
    split
    · refine (effect_leave fun _ hrefs => ?_).trans (effect_bump _ _)
      exact (not_elsewhere_of_inPendingOffers hrefs (by rw [hr]; rfl)).1
    · exact .refl s
  · exact .refl s

theorem effect_expectedDeadline (s : State) :
    Answers (execExpectedDeadline s) (Effect belt s) := by
  refine answers_next ?_
  split
  · split
    · exact (effect_settleDeadlines _ s).trans (effect_arbitrate _)
    · exact .refl s
  · exact .refl s

/-! ## Resolutions (Chapter 3) -/

theorem effect_writeMark (mark : Option StrayCause) (ref : BagRef) (s : State) :
    Effect belt s (writeMark mark ref s) := by
  unfold writeMark
  split
  · exact effect_markStray _ _ s
  · exact .refl s

theorem becomeReady_keeps (r : Record) :
    (becomeReady r).ref = r.ref ∧ (becomeReady r).state = r.state ∧ (becomeReady r).laps = r.laps
      ∧ (becomeReady r).stray = r.stray ∧ (becomeReady r).lead = r.lead
      ∧ (becomeReady r).trail = r.trail := by
  unfold becomeReady
  split <;> exact ⟨rfl, rfl, rfl, rfl, rfl, rfl⟩

theorem effect_writeVerdict (verdict : Verdict) (ref : BagRef) (s : State) :
    Effect belt s (updateRecord ref (fun r => becomeReady { r with verdict }) s) := by
  have hkeeps := fun r : Record => becomeReady_keeps { r with verdict }
  refine .update s ref _ (.of_state (fun r => (hkeeps r).1) (fun r => (hkeeps r).2.1) fun r h => ?_)
    fun _ r => (hkeeps r).2.2.2.2
  obtain ⟨-, -, hlaps, hstray, -⟩ := hkeeps r
  rw [LapsMarked, hlaps, hstray]
  exact h

theorem effect_writeResult (v : Service) (s : State) : Effect belt s (writeResult v s) := by
  unfold writeResult
  split
  · exact .refl s
  · split
    · exact .refl s
    · split
      · exact (effect_writeVerdict _ _ s).trans
          ((effect_writeMark _ _ _).trans (effect_settleArming _ _))
      · exact .refl s

theorem effect_resolutionComplete (s : State) :
    Answers (execResolutionComplete s) (Effect belt s) := by
  refine answers_next ?_
  split
  · refine (effect_writeResult _ s).trans (.ofResolution ?_ (startResolution_exceptions _).1
      fun h => ?_)
    · rw [startResolution_eq]
      rfl
    · obtain ⟨hnodup, hheld, -⟩ := h
      exact requestsInOrder_startResolution hnodup hheld
  · exact .refl s

/-! ## The exception table (R44, R47 to R51) -/

theorem storeException_cabins (e : ExceptionEntry) (l : List ExceptionEntry) (c : Nat)
    (h : c ∈ (storeException e l).map (·.cabin)) : c = e.cabin ∨ c ∈ l.map (·.cabin) := by
  induction l with
  | nil => simpa [storeException] using h
  | cons x rest ih =>
    unfold storeException at h
    split at h
    · simpa using h
    · split at h
      · rename_i heq
        simp only [List.map_cons, List.mem_cons] at h ⊢
        tauto
      · simp only [List.map_cons, List.mem_cons] at h ⊢
        rcases h with h | h
        · exact .inr (.inl h)
        · exact (ih h).imp id .inr

theorem storeException_ascending (e : ExceptionEntry) {l : List ExceptionEntry}
    (h : (l.map (·.cabin)).Pairwise (· < ·)) :
    ((storeException e l).map (·.cabin)).Pairwise (· < ·) := by
  induction l with
  | nil => simp [storeException]
  | cons x rest ih =>
    obtain ⟨hx, hrest⟩ := List.pairwise_cons.mp h
    unfold storeException
    split
    · rename_i hlt
      refine List.pairwise_cons.mpr ⟨fun c hc => ?_, h⟩
      rcases List.mem_cons.mp hc with rfl | hc
      · exact hlt
      · exact hlt.trans (hx c hc)
    · split
      · rename_i heq
        refine List.pairwise_cons.mpr ⟨fun c hc => ?_, hrest⟩
        show e.cabin < c
        rw [heq]
        exact hx c hc
      · refine List.pairwise_cons.mpr ⟨fun c hc => ?_, ih hrest⟩
        rcases storeException_cabins e rest c hc with rfl | hc
        · show x.cabin < e.cabin
          omega
        · exact hx c hc

theorem storeException_length_le (e : ExceptionEntry) (l : List ExceptionEntry) :
    (storeException e l).length ≤ l.length + 1 := by
  induction l with
  | nil => simp [storeException]
  | cons x rest ih =>
    unfold storeException
    split
    · simp
    · split <;> simp [ih]

theorem storeException_length_of_mem {e : ExceptionEntry} {l : List ExceptionEntry}
    (h : (l.map (·.cabin)).Pairwise (· < ·)) (hmem : e.cabin ∈ l.map (·.cabin)) :
    (storeException e l).length = l.length := by
  induction l with
  | nil => simp at hmem
  | cons x rest ih =>
    obtain ⟨hx, hrest⟩ := List.pairwise_cons.mp h
    unfold storeException
    rcases List.mem_cons.mp hmem with heq | hmem
    · simp [heq]
    · have hlt := hx _ hmem
      rw [if_neg (Nat.lt_asymm hlt), if_neg (Nat.ne_of_gt hlt), List.length_cons, List.length_cons,
        ih hrest hmem]

theorem exceptionFor_isSome {c : Nat} :
    (exceptionFor s c).isSome = true ↔ c ∈ s.resolution.exceptions.map (·.cabin) := by
  simp [exceptionFor, List.find?_isSome]

theorem heldRecord_of_recordsForCabin {c : Nat} {ref : BagRef} (h : ref ∈ recordsForCabin s c) :
    (heldRecord s ref).isSome = true := by
  simp only [recordsForCabin, List.mem_map, List.mem_filter] at h
  obtain ⟨r, ⟨hr, -⟩, rfl⟩ := h
  refine Option.isSome_iff_ne_none.mpr fun hnone => ?_
  exact heldRecord_eq_none_iff_forall.mp hnone r hr rfl

theorem effect_changeExceptions {c : Nat} {f : List ExceptionEntry → List ExceptionEntry}
    (hf : s.resolution.exceptions.length ≤ 256 → ExceptionsAscending s →
      (f s.resolution.exceptions).length ≤ 256
        ∧ ((f s.resolution.exceptions).map (·.cabin)).Pairwise (· < ·)) :
    Effect belt s (changeExceptions c f s) := by
  refine .trans (.resolution s { s.resolution with exceptions := f s.resolution.exceptions } hf
    fun h => h) (effect_raiseRequests fun _ h => ?_)
  exact heldRecord_of_recordsForCabin (s := s) h

theorem effect_clearException (c : Nat) (s : State) : Effect belt s (clearException c s) := by
  unfold clearException
  split
  · refine effect_changeExceptions fun hlen hasc => ⟨(List.length_filter_le _ _).trans hlen, ?_⟩
    exact List.Pairwise.sublist (List.filter_sublist.map _) hasc
  · exact .refl s

theorem effect_applyException (c : Nat) (kind : ExceptionKind) (s : State) :
    Effect belt s (applyException c kind s) := by
  unfold applyException
  split
  · split
    · rename_i hplace
      refine effect_changeExceptions fun hlen hasc => ⟨?_, storeException_ascending _ hasc⟩
      rcases hplace with hsome | hroom
      · rw [storeException_length_of_mem hasc (exceptionFor_isSome.mp hsome)]
        exact hlen
      · exact (storeException_length_le _ _).trans hroom
    · exact (effect_bump _ s).trans (effect_mapFlags _ _)
  · exact effect_clearException c s

theorem effect_cabinEntries (l : List CabinEntry) (s : State) :
    Effect belt s (s.mapResolution fun u => { u with cabinEntries := l }) :=
  .ofResolution rfl rfl fun h => h

theorem effect_dropInvalidEntries (n : Nat) (s : State) :
    Effect belt s (dropInvalidEntries n s) := by
  induction n generalizing s with
  | zero => exact .refl s
  | succ n ih =>
    unfold dropInvalidEntries
    split
    · split
      · exact (effect_cabinEntries _ s).trans ((effect_bump _ _).trans (ih _))
      · exact .refl s
    · exact .refl s

theorem effect_cabinFrame (body : List Byte) (s : State) :
    Answers (execCabinFrame body s) (Effect belt s) := by
  refine answers_next ?_
  split
  · rename_i f hf
    have hend : Effect belt s (endFrame s) := effect_endFrame_of_handed hf
    dsimp only
    split
    · split
      · exact hend.trans ((effect_cabinEntries _ _).trans (effect_dropInvalidEntries _ _))
      · exact hend.trans (effect_bump _ _)
    · exact hend
  · exact .refl s

theorem effect_applyCabinEntry {act : CabinEntry → State → State} (kind : Nat) (s : State)
    (hact : ∀ e t, Effect belt t (act e t)) : Effect belt s (applyCabinEntry kind act s) := by
  unfold applyCabinEntry
  split
  · split
    · have hpop : Effect belt s (popCabinEntry s) := effect_cabinEntries _ s
      refine hpop.trans (.trans ?_ (effect_dropInvalidEntries _ _))
      split
      · exact hact _ _
      · exact effect_bump _ _
    · exact .refl s
  · exact .refl s

/-! ## The characters of the line (section 6.3) -/

/-- The row of a good frame acts on the node as the end of the frame leaves it: the bytes may have come
singly before. -/
theorem exec_frameRow_congr {t : State} {f : InFrame} {body body' : List Byte}
    (hend : endFrame t = endFrame s) (hstart : t.start = s.start) (hnode : s.start.node ≠ .start)
    (hs : goodFrame s body = some f) (ht : goodFrame t body' = some f) :
    exec (frameRow s f body') t = exec (frameRow s f body) s := by
  by_cases hown : f.source = s.start.station
  · simp [frameRow, hown, exec, execUnactedFrame, hs, ht, frameUnacted, hstart, hend]
  by_cases hfault : s.start.node = .fault
  · by_cases hdest : f.dest = s.start.station
    · cases hk : f.kind <;>
        simp [frameRow, hown, hfault, hdest, hk, exec, execUnactedFrame, execFaultOffer,
          execFaultCode, execFaultAsk, takeInFault, handedFrame, hs, ht, frameUnacted, inFault, hstart,
          hend, kindAnsweredInFault]
    · simp [frameRow, hown, hfault, hdest, exec, execUnactedFrame, hs, ht, frameUnacted, inFault,
        hstart, hend]
  have hrun : s.start.node = .run := by
    cases hn : s.start.node <;> simp_all
  have hrow : ∀ k, f.kind = k → handedFrame s k body = some f ∧ handedFrame t k body' = some f := by
    rintro k rfl
    simp [handedFrame, hs, ht, hown, hstart]
  obtain ⟨hs', ht'⟩ := hrow f.kind rfl
  cases hk : f.kind <;> rw [hk] at hs' ht'
  case ask =>
    by_cases hpage : payloadByte f.payload 0 = 0 <;>
      simp [frameRow, hown, hk, exec, execAskStatus, execAskCounts, hs', ht', inRun, hrun, hstart,
        hend, hpage]
  case hold =>
    have htake : ∀ op, payloadByte f.payload 0 = op ∨ 3 < payloadByte f.payload 0 →
        takeHold op body' t = takeHold op body s := fun op hop => by
      simp [takeHold, hs', ht', inRun, hrun, hstart, hend, hop]
    simp only [frameRow, hown, hfault, hk, if_false]
    split
    · exact congrArg Host.Outcome.next (htake 1 (.inl ‹_›))
    · exact congrArg Host.Outcome.next (htake 2 (.inl ‹_›))
    · exact congrArg Host.Outcome.next (htake 3 (.inl ‹_›))
    · rename_i h1 h2 h3
      have hop : payloadByte f.payload 0 ≠ 1 ∧ payloadByte f.payload 0 ≠ 2
          ∧ payloadByte f.payload 0 ≠ 3 := ⟨h1, h2, h3⟩
      exact congrArg Host.Outcome.next (htake 0 (by omega))
  case take | wait | spurn =>
    have hanswered : answeredOffer t f = answeredOffer s f := by
      show answeredOffer (endFrame t) f = answeredOffer (endFrame s) f
      rw [hend]
    have htake : ∀ act, takeAnswer _ body' act t = takeAnswer _ body act s := fun act => by
      rw [takeAnswer, takeAnswer, hs', ht', hend]
      simp only [inRun, State.image, hstart, hanswered]
      rfl
    simp only [frameRow, hown, hfault, hk, if_false]
    exact congrArg Host.Outcome.next (htake _)
  all_goals
    simp [frameRow, hown, hk, exec, execOfferReceived, 
      execCabinFrame, execCodeReceived, execCrowdReceived, execStatusReceived,
      execZero, execUnactedFrame, hs, ht, hs', ht', inRun, hrun, hstart, hend, frameUnacted,
      kindUnacted, image_def] <;> rfl

/-- A good frame whose last byte has entered the buffer has the effect of its row (R110, R111, R183). -/
theorem endOfFrame_of_good {f : InFrame} (h : goodFrame s [] = some f) :
    endOfFrame s = exec (frameRow s f []) s := by
  unfold endOfFrame
  rw [h]
  by_cases hown : f.source = s.start.station
  · simp [frameRow, frameUnacted, hown, exec]
  by_cases hfault : s.start.node = .fault
  · by_cases hdest : f.dest = s.start.station <;> cases hk : f.kind <;>
      simp [frameRow, frameUnacted, hown, hfault, hdest, hk, exec, inFault, kindAnsweredInFault,
        handFrameInFault, kindUnacted]
  · cases hk : f.kind
    case ask =>
      by_cases hpage : payloadByte f.payload 0 = 0 <;>
        simp [frameRow, frameUnacted, hown, hfault, hk, exec, inFault, handFrame, handAsk, hpage,
          kindUnacted]
    case hold =>
      simp only [frameRow, frameUnacted, hown, hfault, hk, inFault, handFrame, handHold, kindUnacted,
        decide_false, Bool.or_false, Bool.false_and, Bool.false_eq_true, if_false]
      generalize payloadByte f.payload 0 = operation
      match operation with
      | 0 => rfl
      | 1 => rfl
      | 2 => rfl
      | 3 => rfl
      | _ + 4 => rfl
    all_goals simp [frameRow, frameUnacted, hown, hfault, hk, exec, inFault, handFrame, kindUnacted]

/-- A frame in progress that the buffer's bytes end. -/
theorem headInProgress_of_bodyEnds {b : Byte} (hbody : s.line.receiver = .body)
    (h : bodyEnds (s.line.buffer ++ [b]).tail = true) : ∃ head, headInProgress s = some head := by
  cases hbuf : s.line.buffer with
  | nil => simp [hbuf, bodyEnds] at h
  | cons head rest => exact ⟨head, by simp [headInProgress, hbody, hbuf]⟩

/-- The frame that a byte ends is handed over as the row with that byte as its operand does it. -/
theorem endOfFrame_collected {b : Byte} {f : InFrame} (hnode : s.start.node ≠ .start)
    (h : goodFrame s [b] = some f) :
    endOfFrame (setReceiver .body (s.line.buffer ++ [b]) s) = exec (frameRow s f [b]) s := by
  obtain ⟨head, he, -⟩ := goodFrame_eq_some h
  have hgood : goodFrame (setReceiver .body (s.line.buffer ++ [b]) s) [] = some f :=
    (goodFrame_collected he b []).trans h
  rw [endOfFrame_of_good hgood]
  exact exec_frameRow_congr (s := s) (t := setReceiver .body (s.line.buffer ++ [b]) s) rfl rfl hnode h
    hgood

/-- A frame that a byte ends and that fails a test is counted. -/
theorem endOfFrame_collected_bad {b head : Byte} (he : headInProgress s = some head)
    (hends : bodyEnds (s.line.buffer ++ [b]).tail = true) (h : goodFrame s [b] = none) :
    endOfFrame (setReceiver .body (s.line.buffer ++ [b]) s)
      = .next (bump .checkErrors (endFrame s)) := by
  obtain ⟨hhead, hbody⟩ := collected_byte he b []
  have hends' : bodyEnds (bodyWith (setReceiver .body (s.line.buffer ++ [b]) s) []) = true := by
    simpa [bodyWith] using hends
  have hgood : goodFrame (setReceiver .body (s.line.buffer ++ [b]) s) [] = none :=
    (goodFrame_collected he b []).trans h
  have htest := hgood
  rw [goodFrame, hhead] at htest
  simp only [hends', if_true] at htest
  rw [endOfFrame, hgood]
  simp [execBadFrame, badFrameEnds, hhead, hends', htest]

end

end Sys2Proof.Machine

/-! # What every command outside the Start Unit and the encoder does -/

namespace Sys2Proof.Machine

section
variable {belt : Bool} {s t u : State}

theorem Answers.and {r : Result} {P Q : State → Prop} (hp : Answers r P) (hq : Answers r Q) :
    Answers r fun t => P t ∧ Q t := by
  obtain ⟨t, rfl, hp⟩ := hp
  exact ⟨t, rfl, hp, answers_next_iff.mp hq⟩

theorem Answers.imp {r : Result} {P Q : State → Prop} (hp : Answers r P) (h : ∀ t, P t → Q t) :
    Answers r Q := by
  obtain ⟨t, rfl, hp⟩ := hp
  exact ⟨t, rfl, h t hp⟩

/-- What moves nothing on the belt is also an effect where the belt may move. -/
theorem Effect.relax (h : Effect false s t) : Effect true s t := by
  induction h with
  | refl s => exact .refl s
  | trans _ _ ih₁ ih₂ => exact ih₁.trans ih₂
  | supervision s u hd hc => exact .supervision s u hd hc
  | outlets s q hq => exact .outlets s q hq
  | codes s l hl => exact .codes s l hl
  | line s l o d ha hn hk => exact .line s l o d ha hn hk
  | resolution s u hu hr => exact .resolution s u hu hr
  | track s u ht hs => exact .track s u ht hs
  | update s ref f hf _ => exact .update s ref f hf nofun
  | drop s ref _ => exact .drop s ref nofun
  | enter s p h₁ h₂ h₃ h₄ h₅ h₆ => exact .enter s p h₁ h₂ h₃ h₄ h₅ h₆
  | expect s r e h₁ h₂ h₃ h₄ h₅ => exact .expect s r e h₁ h₂ h₃ h₄ h₅
  | tick s => exact .tick s
  | place _ _ _ _ h => cases h
  | promote _ _ _ h => cases h
  | crowdView _ _ _ h => cases h
  | position _ _ h => cases h
  | empty _ h => cases h

/-- The outcome of a command: an effect, after which the merge permit follows its conditions as before. -/
def Outcome (s t : State) : Prop :=
  Effect true s t ∧ (BagsKept s → PermitFollowsConditions s → PermitFollowsConditions t)

theorem Outcome.calm (h : Effect false s t) : Outcome s t := by
  refine ⟨h.relax, fun hb hp => ?_⟩
  obtain ⟨hpermit, hconditions⟩ := h.permit_eq hb
  rw [PermitFollowsConditions, hpermit, hconditions]
  exact hp

theorem Outcome.trans (h : Outcome s t) (k : Outcome t u) : Outcome s u :=
  ⟨h.1.trans k.1, fun hb hp => k.2 (h.1.keeps_bags hb) (h.2 hb hp)⟩

theorem Outcome.decided (h : Effect true s t) (hp : PermitFollowsConditions t) : Outcome s t :=
  ⟨h, fun _ _ => hp⟩

theorem outcome_refl (s : State) : Outcome s s := .calm (.refl s)

/-- A command with an effect, whose answer is the state as it was or one with the permit decided. -/
theorem outcome_of_decided {r : Result} (he : Answers r (Effect true s))
    (hp : Answers r fun t => t = s ∨ PermitFollowsConditions t) : Answers r (Outcome s) := by
  refine (he.and hp).imp fun t h => ⟨h.1, fun _ hs => ?_⟩
  rcases h.2 with rfl | h
  · exact hs
  · exact h

/-! ## The commands that decide the permit afresh -/

theorem outcome_entryEyeArrival (s : State) : Answers (execEntryEyeArrival s) (Outcome s) := by
  refine outcome_of_decided (effect_entryEyeArrival s) (answers_next ?_)
  split
  · exact .inr (permitFollows_arbitrate_decidePermit _)
  · exact .inl rfl

theorem outcome_entryEyeTrailingEdge (s : State) :
    Answers (execEntryEyeTrailingEdge s) (Outcome s) := by
  refine outcome_of_decided (effect_entryEyeTrailingEdge s) (answers_next ?_)
  split
  · split
    · exact .inr (permitFollows_arbitrate_decidePermit _)
    · exact .inl rfl
  · exact .inl rfl

theorem outcome_mergeArrival (coded : Bool) (s : State) :
    Answers (execMergeArrival coded s) (Outcome s) := by
  refine outcome_of_decided (effect_mergeArrival coded s) (answers_next ?_)
  split
  · exact .inr (permitFollows_arbitrate_decidePermit _)
  · exact .inl rfl

theorem outcome_mergeEyeTrailingEdge (s : State) :
    Answers (execMergeEyeTrailingEdge s) (Outcome s) := by
  refine outcome_of_decided (effect_mergeEyeTrailingEdge s) (answers_next ?_)
  split
  · split
    · exact .inr (permitFollows_arbitrate_decidePermit _)
    · exact .inl rfl
  · exact .inl rfl

theorem outcome_speedWindowEnd (s : State) : Answers (execSpeedWindowEnd s) (Outcome s) := by
  refine outcome_of_decided (effect_speedWindowEnd s) (answers_next ?_)
  split
  · exact .inr rfl
  · exact .inl rfl

theorem outcome_chuteEntry (k : OutletNo) (s : State) :
    Answers (execChuteEntry k s) (Outcome s) := by
  refine outcome_of_decided (effect_chuteEntry k s) (answers_next ?_)
  split
  · exact .inr (permitFollows_arbitrate_decidePermit _)
  · exact .inl rfl

theorem outcome_confirmTimeout (ref : BagRef) (s : State) :
    Answers (execConfirmTimeout ref s) (Outcome s) := by
  refine outcome_of_decided (effect_confirmTimeout ref s) (answers_next ?_)
  split
  · split
    · exact .inr (permitFollows_arbitrate_decidePermit _)
    · exact .inl rfl
  · exact .inl rfl

theorem outcome_offerPoint (ref : BagRef) (s : State) :
    Answers (execOfferPoint ref s) (Outcome s) := by
  refine outcome_of_decided (effect_offerPoint ref s) (answers_next ?_)
  split
  · split
    · exact .inr (permitFollows_arbitrate_decidePermit _)
    · exact .inl rfl
  · exact .inl rfl

theorem outcome_segmentExit (ref : BagRef) (s : State) :
    Answers (execSegmentExit ref s) (Outcome s) := by
  refine outcome_of_decided (effect_segmentExit ref s) (answers_next ?_)
  split
  · split
    · exact .inr (permitFollows_arbitrate_decidePermit _)
    · exact .inl rfl
  · exact .inl rfl

theorem outcome_silenceTimeout (n : Nat) (s : State) :
    Answers (execSilenceTimeout n s) (Outcome s) := by
  refine outcome_of_decided (effect_silenceTimeout n s) (answers_next ?_)
  split
  · exact .inr rfl
  · exact .inl rfl

theorem outcome_endFrame_of_handed {k : FrameKind} {body : List Byte} {f : InFrame}
    (hf : handedFrame s k body = some f) : Outcome s (endFrame s) :=
  .calm (effect_endFrame_of_handed hf)

theorem outcome_hearFrom (f : InFrame) (value : Nat) (sound : Bool) (s : State) :
    Outcome s (hearFrom f value sound s) := by
  have he := effect_hearFrom f value sound s
  revert he
  unfold hearFrom
  split
  · split
    · exact fun he => .decided he rfl
    · exact fun _ => .calm (effect_bump _ s)
  · exact fun _ => outcome_refl s

theorem outcome_crowdReceived (body : List Byte) (s : State) :
    Answers (execCrowdReceived body s) (Outcome s) := by
  refine answers_next ?_
  split
  · rename_i f hf
    dsimp only
    split
    · exact (outcome_endFrame_of_handed hf).trans (outcome_hearFrom _ _ _ _)
    · exact outcome_endFrame_of_handed hf
  · exact outcome_refl s

theorem outcome_statusReceived (body : List Byte) (s : State) :
    Answers (execStatusReceived body s) (Outcome s) := by
  refine answers_next ?_
  split
  · rename_i f hf
    dsimp only
    split
    · exact (outcome_endFrame_of_handed hf).trans (outcome_hearFrom _ _ _ _)
    · exact outcome_endFrame_of_handed hf
  · exact outcome_refl s

/-- An answer to the outstanding offer whose effect decides the permit. -/
theorem outcome_takeAnswer {act : BagRef → State → State} (k : FrameKind) (body : List Byte) (s : State)
    (hact : ∀ ref t, Effect true t (act ref t))
    (hpermit : ∀ ref t, PermitFollowsConditions (act ref t)) :
    Outcome s (takeAnswer k body act s) := by
  unfold takeAnswer
  split
  · rename_i f hf
    refine (outcome_endFrame_of_handed hf).trans ?_
    dsimp only
    split
    · split
      · split
        · exact .decided (hact _ _) (hpermit _ _)
        · exact outcome_refl _
      · exact .calm (effect_bump _ _)
    · exact outcome_refl _
  · exact outcome_refl s

theorem outcome_takeReceived (body : List Byte) (s : State) :
    Answers (execTakeReceived body s) (Outcome s) :=
  answers_next (outcome_takeAnswer _ _ _
    (fun ref t => (effect_leaveTable ref t).trans (effect_arbitrate_decidePermit _))
    fun _ _ => permitFollows_arbitrate_decidePermit _)

theorem outcome_spurnReceived (body : List Byte) (s : State) :
    Answers (execSpurnReceived body s) (Outcome s) :=
  answers_next (outcome_takeAnswer _ _ _
    (fun ref t => (effect_spurnAnswer ref t).trans (effect_arbitrate_decidePermit _))
    fun _ _ => permitFollows_arbitrate_decidePermit _)

/-! ## FAULT -/

theorem effect_faultSpurn (f : InFrame) (l : List Byte) (s : State) :
    Effect belt s (faultSpurn f l s) := effect_answer _ s

theorem effect_faultOffer (body : List Byte) (s : State) :
    Answers (execFaultOffer body s) (Effect belt s) :=
  answers_next (effect_takeInFault _ _ _ fun _ t => effect_faultSpurn _ _ t)

theorem effect_faultCode (body : List Byte) (s : State) :
    Answers (execFaultCode body s) (Effect belt s) :=
  answers_next (effect_takeInFault _ _ _ fun _ t => effect_faultSpurn _ _ t)

theorem effect_faultAsk (body : List Byte) (s : State) :
    Answers (execFaultAsk body s) (Effect belt s) :=
  answers_next (effect_takeInFault _ _ _ effect_faultAskAnswer)

/-! ## The dispatch -/

/-- The commands that are not made of effects alone: those of the Start Unit, and the encoder's pulse. -/
def actsOnStart : Instr → Bool
  | .powerUpReset | .resetRelease _ _ | .startSequenceEnd _ | .segmentClearAssert
  | .segmentClearRelease | .encoderPulse => true
  | _ => false

/-- A character of the line; its effect goes through the row of the frame that it ends. -/
def isCharacter : Instr → Bool
  | .frameHead _ => true
  | _ => false

/-- Every other command's outcome. -/
theorem exec_outcome_row {c : Instr} (hstart : actsOnStart c = false) (hchar : isCharacter c = false)
    (s : State) : Answers (exec c s) (Outcome s) := by
  cases c with
  | powerUpReset => cases hstart
  | resetRelease => cases hstart
  | startSequenceEnd => cases hstart
  | segmentClearAssert => cases hstart
  | segmentClearRelease => cases hstart
  | encoderPulse => cases hstart
  | frameHead => cases hchar
  | speedWindowEnd => exact outcome_speedWindowEnd s
  | entryEyeArrival => exact outcome_entryEyeArrival s
  | entryEyeTrailingEdge => exact outcome_entryEyeTrailingEdge s
  | mergeArrival coded => exact outcome_mergeArrival coded s
  | mergeEyeTrailingEdge => exact outcome_mergeEyeTrailingEdge s
  | chuteEntry k => exact outcome_chuteEntry k s
  | confirmTimeout ref => exact outcome_confirmTimeout ref s
  | offerPoint ref => exact outcome_offerPoint ref s
  | segmentExit ref => exact outcome_segmentExit ref s
  | takeReceived body => exact outcome_takeReceived body s
  | spurnReceived body => exact outcome_spurnReceived body s
  | crowdReceived body => exact outcome_crowdReceived body s
  | statusReceived body => exact outcome_statusReceived body s
  | silenceTimeout n => exact outcome_silenceTimeout n s
  | readerMessage bytes => exact (effect_readerMessage bytes s).imp fun _ => .calm
  | readerGapTimeout => exact (effect_readerGapTimeout s).imp fun _ => .calm
  | readWindowOpen ref => exact (effect_readWindowOpen ref s).imp fun _ => .calm
  | readWindowClose ref => exact (effect_readWindowClose ref s).imp fun _ => .calm
  | resolutionComplete => exact (effect_resolutionComplete s).imp fun _ => .calm
  | cabinFrame body => exact (effect_cabinFrame body s).imp fun _ => .calm
  | cabinEntryClear =>
    exact answers_next (.calm (effect_applyCabinEntry 0 s fun e => effect_clearException e.cabin))
  | cabinEntryCancelled =>
    exact answers_next (.calm (effect_applyCabinEntry 1 s fun e => effect_applyException e.cabin _))
  | cabinEntryHold =>
    exact answers_next (.calm (effect_applyCabinEntry 2 s fun e => effect_applyException e.cabin _))
  | cabinEntryRedirect =>
    exact answers_next (.calm (effect_applyCabinEntry 3 s fun e => effect_applyException e.cabin _))
  | arming ref => exact (effect_arming ref s).imp fun _ => .calm
  | fire ref => exact (effect_fire ref s).imp fun _ => .calm
  | dwellExpiry k => exact (effect_dwellExpiry k s).imp fun _ => .calm
  | homeTimeout k => exact (effect_homeTimeout k s).imp fun _ => .calm
  | homeSensorEdge k asserted => exact (effect_homeSensorEdge k asserted s).imp fun _ => .calm
  | cartSwap k => exact (effect_cartSwap k s).imp fun _ => .calm
  | cartRemoval k => exact (effect_cartRemoval k s).imp fun _ => .calm
  | holdSwitchChange k on => exact (effect_holdSwitchChange k on s).imp fun _ => .calm
  | replyWindowExpiry => exact (effect_replyWindowExpiry s).imp fun _ => .calm
  | repeatIntervalExpiry => exact (effect_repeatIntervalExpiry s).imp fun _ => .calm
  | offerReceived body => exact (effect_offerReceived body s).imp fun _ => .calm
  | waitReceived body => exact (effect_waitReceived body s).imp fun _ => .calm
  | discardTimeout ref => exact (effect_discardTimeout ref s).imp fun _ => .calm
  | expectedDeadline => exact (effect_expectedDeadline s).imp fun _ => .calm
  | codeReceived body => exact (effect_codeReceived body s).imp fun _ => .calm
  | askStatus body => exact (effect_askStatus body s).imp fun _ => .calm
  | askCounts body => exact (effect_askCounts body s).imp fun _ => .calm
  | holdRead body => exact answers_next (.calm (effect_takeHold 0 body s))
  | holdSet body => exact answers_next (.calm (effect_takeHold 1 body s))
  | holdClear body => exact answers_next (.calm (effect_takeHold 2 body s))
  | holdToggle body => exact answers_next (.calm (effect_takeHold 3 body s))
  | zero body => exact (effect_zero body s).imp fun _ => .calm
  | faultOffer body => exact (effect_faultOffer body s).imp fun _ => .calm
  | faultCode body => exact (effect_faultCode body s).imp fun _ => .calm
  | faultAsk body => exact (effect_faultAsk body s).imp fun _ => .calm
  | characterError c => exact (effect_characterError c s).imp fun _ => .calm
  | receiveOverrun body => exact (effect_receiveOverrun body s).imp fun _ => .calm
  | badFrame body => exact (effect_badFrame body s).imp fun _ => .calm
  | unactedFrame body => exact (effect_unactedFrame body s).imp fun _ => .calm
  | gapReached => exact (effect_gapReached s).imp fun _ => .calm
  | frameSent => exact (effect_frameSent s).imp fun _ => .calm
  | collision => exact (effect_collision s).imp fun _ => .calm
  | backoffEnd => exact (effect_backoffEnd s).imp fun _ => .calm
  | statusTimerExpiry => exact (effect_statusTimerExpiry s).imp fun _ => .calm
  | damagedReaderByte b ok => exact (effect_damagedReaderByte b ok s).imp fun _ => .calm

/-! ## The characters of the line -/

/-- The rows of frames are neither the Start Unit's commands nor characters. -/
theorem frameRow_is_row (s : State) (f : InFrame) (rest : List Byte) :
    actsOnStart (frameRow s f rest) = false ∧ isCharacter (frameRow s f rest) = false := by
  unfold frameRow
  repeat' split
  all_goals exact ⟨rfl, rfl⟩

theorem outcome_frameRow (s : State) (f : InFrame) (rest : List Byte) :
    Answers (exec (frameRow s f rest) s) (Outcome s) :=
  exec_outcome_row (frameRow_is_row s f rest).1 (frameRow_is_row s f rest).2 s

/-- A byte that ends no frame leaves the buffer one byte longer, and the frame in progress. -/
theorem bufferAgrees_append {b : Byte} (hlen : s.line.buffer.length < 32)
    (hends : bodyEnds (s.line.buffer ++ [b]).tail = false) (hbody : s.line.receiver = .body)
    (h : BufferAgrees s) :
    1 ≤ (s.line.buffer ++ [b]).length ∧ (s.line.buffer ++ [b]).length ≤ 32
      ∧ ∀ n, (s.line.buffer ++ [b])[3]? = some n → (s.line.buffer ++ [b]).length < n.toNat + 5 := by
  obtain ⟨-, -, hn⟩ := h.1 hbody
  refine ⟨by simp, by simp; omega, fun n hget => ?_⟩
  match hbuf : s.line.buffer with
  | [] => simp [hbuf] at hget
  | [_] => simp [hbuf] at hget
  | [_, _] => simp [hbuf] at hget
  | [_, _, _] => simp
  | a :: x :: y :: m :: rest =>
    simp only [hbuf, List.cons_append, List.getElem?_cons_succ, List.getElem?_cons_zero,
      Option.some.injEq] at hget
    subst hget
    have hlt := hn m (by simp [hbuf])
    rw [hbuf] at hlen hends hlt
    simp only [List.cons_append, List.tail_cons, bodyEnds, List.length_append, List.length_cons,
      List.length_nil, Bool.and_eq_false_iff, decide_eq_false_iff_not] at hends hlt hlen ⊢
    omega

theorem outcome_collect (b : Byte) (hbody : s.line.receiver = .body) :
    Answers (collect b s) (Outcome s) := by
  have hon : s.line.receiver ≠ .off := by simp [hbody]
  rcases collect_cases s b with ⟨-, h⟩ | ⟨hlen, hends, h⟩ | ⟨hlen, hends, h⟩ <;> rw [h]
  · exact answers_next (.calm ((effect_endFrame hon).trans (effect_bump _ _)))
  · obtain ⟨head, he⟩ := headInProgress_of_bodyEnds hbody hends
    cases hgood : goodFrame s [b] with
    | none =>
      rw [endOfFrame_collected_bad he hends hgood]
      exact answers_next (.calm ((effect_endFrame hon).trans (effect_bump _ _)))
    | some f =>
      by_cases hnode : s.start.node = .start
      · have hbuffer : Effect false s (setReceiver .body (s.line.buffer ++ [b]) s) :=
          .ofLineAlone rfl id id fun hs => absurd (hs.2.1 hnode).1 hon
        have hgood' := (goodFrame_collected he b []).trans hgood
        rw [endOfFrame_of_good hgood']
        exact (outcome_frameRow _ _ _).imp fun _ => (Outcome.calm hbuffer).trans
      · rw [endOfFrame_collected hnode hgood]
        exact outcome_frameRow _ _ _
  · exact answers_next (.calm (effect_setReceiver hon
      (fun _ hagrees => bufferAgrees_append hlen hends hbody hagrees) nofun))

theorem outcome_frameHead (c : LineChar) (s : State) : Answers (execFrameHead c s) (Outcome s) := by
  unfold execFrameHead
  split
  · split
    · exact answers_next (.calm (effect_receiveHead _ s))
    · unfold bodyCharacter
      split
      · exact answers_next (outcome_refl s)
      · exact outcome_collect _ ‹_›
      · rename_i hoff hbody
        exact answers_next (.calm (effect_setReceiver hoff (fun h => absurd h hbody)
          fun _ hagrees => hagrees.2 hbody))
  · exact answers_next (outcome_refl s)

/-- Every command outside the Start Unit and the encoder is made of effects, and keeps the permit at what
its conditions give. -/
theorem exec_outcome {c : Instr} (hstart : actsOnStart c = false) (s : State) :
    Answers (exec c s) (Outcome s) := by
  by_cases hchar : isCharacter c = false
  · exact exec_outcome_row hstart hchar s
  · cases c
    case frameHead c => exact outcome_frameHead c s
    all_goals exact absurd rfl hchar

/-! ## A quiet bit time -/

theorem lineKept_tickLine (hs : LineKept s) : LineKept (s.mapLine tickLine) := by
  show LineKept { s with line := tickLine s.line }
  rcases tickLine_cases s.line with ⟨-, h⟩ | ⟨-, -, h⟩ <;> rw [h]
  · exact hs
  · exact lineKept_idleBits 1 hs

theorem effect_passBit (s : State) : Effect belt s (passBit s) := by
  unfold passBit
  split
  · have hline : Effect belt s (s.mapLine tickLine) := by
      refine .ofLineAlone rfl ?_ ?_ lineKept_tickLine <;>
        rcases tickLine_cases s.line with ⟨-, h⟩ | ⟨-, -, h⟩ <;> simp [h]
    have hbits : ∀ n (t : State), Effect belt t (t.mapLine fun u => { u with msBits := n }) :=
      fun n t => .ofLineAlone rfl id id fun h => h
    refine hline.trans ?_
    unfold tickTimebase
    split
    · exact hbits _ _
    · exact (hbits _ _).trans (.tick _)
  · exact .refl s

end

end Sys2Proof.Machine

/-! # The configuration image and its checks (section 10.3) -/

namespace Sys2Proof.Machine

section
variable (img : List Byte)

theorem imageByte_lt (i : Nat) : imageByte img i < 256 := (img.getD i 0#8).isLt

theorem imageWord_le (i : Nat) : imageWord img i ≤ 65535 := by
  have h1 := imageByte_lt img i
  have h2 := imageByte_lt img (i + 1)
  unfold imageWord
  omega

theorem imageByte_le (i : Nat) : imageByte img i ≤ 255 := Nat.le_of_lt_succ (imageByte_lt img i)

theorem within_iff {lo hi n : Nat} : within lo hi n = true ↔ lo ≤ n ∧ n ≤ hi := by
  simp [within]

/-! ## The checks, field by field -/

theorem outletRangeOk_iff (k : Nat) :
    outletRangeOk img k = true ↔ imageByte img (54 + 18 * k) ≤ 2
      ∧ (imageByte img (54 + 18 * k) ≠ 0 →
        1 ≤ imageWord img (55 + 18 * k) ∧ 1 ≤ imageWord img (57 + 18 * k)
          ∧ imageWord img (59 + 18 * k) ≤ 2000 ∧ imageWord img (61 + 18 * k) ≤ 2000
          ∧ imageWord img (63 + 18 * k) ≤ 2000
          ∧ (20 ≤ imageWord img (65 + 18 * k) ∧ imageWord img (65 + 18 * k) ≤ 2000)
          ∧ (20 ≤ imageWord img (67 + 18 * k) ∧ imageWord img (67 + 18 * k) ≤ 5000)
          ∧ (100 ≤ imageWord img (69 + 18 * k) ∧ imageWord img (69 + 18 * k) ≤ 10000)
          ∧ (1 ≤ imageByte img (71 + 18 * k) ∧ imageByte img (71 + 18 * k) ≤ 250)) := by
  have hplace : ∀ i, 54 + 18 * k + i = 54 + i + 18 * k := fun i => by omega
  simp only [outletRangeOk, imageOutlet, hplace, Nat.reduceAdd, Bool.and_eq_true, Bool.or_eq_true,
    decide_eq_true_eq, within_iff, imageWord_le, Nat.zero_le, true_and,
    and_true, and_assoc, or_iff_not_imp_left]

theorem windowRangeOk_iff (j : Nat) :
    windowRangeOk img j = true ↔ imageByte img (130 + 9 * j) ≤ 3 ∧ imageByte img (131 + 9 * j) ≤ 1
      ∧ (imageByte img (131 + 9 * j) = 1 →
        imageByte img (132 + 9 * j) ≤ 99 ∧ imageByte img (133 + 9 * j) ≤ 99
          ∧ imageByte img (134 + 9 * j) ≤ 3) := by
  have hplace : ∀ i, 126 + 9 * j + i = 126 + i + 9 * j := fun i => by omega
  simp only [windowRangeOk, hplace, Nat.reduceAdd, Bool.and_eq_true, Bool.or_eq_true,
    decide_eq_true_eq, within_iff, Nat.zero_le, true_and]
  omega

theorem readerRangeOk_iff :
    readerRangeOk img = true ↔ imageByte img 9 ≤ 3 ∧ 1 ≤ imageWord img 10 := by
  simp only [readerRangeOk, Bool.and_eq_true, within_iff, imageWord_le, Nat.zero_le, true_and,
    and_true]

theorem imageWatchSet_toNat :
    (imageWatchSet img).toNat = imageWord img 47 * 65536 + imageWord img 49 := by
  have h1 := imageWord_le img 47
  have h2 := imageWord_le img 49
  rw [imageWatchSet, BitVec.toNat_ofNat]
  omega

/-- Station 0 is not watched where the last byte of the watch set is even. -/
theorem watchSet_getLsbD_zero :
    (imageWatchSet img).getLsbD 0 = false ↔ imageByte img 50 % 2 = 0 := by
  rw [BitVec.getLsbD, imageWatchSet_toNat, Nat.testBit_eq_decide_div_mod_eq, decide_eq_false_iff_not]
  simp only [imageWord, Nat.reduceAdd, pow_zero, Nat.div_one]
  omega

/-- Station 31 is not watched where the first byte of the watch set is below 128. -/
theorem watchSet_getLsbD_last :
    (imageWatchSet img).getLsbD 31 = false ↔ imageByte img 47 < 128 := by
  have h1 := imageByte_lt img 47
  have h2 := imageByte_lt img 48
  have h3 := imageWord_le img 49
  rw [BitVec.getLsbD, imageWatchSet_toNat, Nat.testBit_eq_decide_div_mod_eq, decide_eq_false_iff_not]
  simp only [imageWord, Nat.reduceAdd, Nat.reducePow] at h3 ⊢
  omega

theorem inductionRangeOk_iff :
    inductionRangeOk img = true ↔ 1 ≤ imageWord img 43 ∧ imageByte img 47 < 128
      ∧ imageByte img 50 % 2 = 0 ∧ 1 ≤ imageByte img 51 ∧ imageByte img 51 ≤ 10 := by
  simp only [inductionRangeOk, Bool.and_eq_true, within_iff, imageWord_le, and_true, Bool.not_eq_true',
    watchSet_getLsbD_zero, watchSet_getLsbD_last]
  tauto

theorem rateOfDivide_isSome (n : Nat) :
    (rateOfDivide n).isSome = true ↔ n = 128 ∨ n = 64 ∨ n = 32 := by
  unfold rateOfDivide
  split <;> simp_all

/-- A field examined where its switch, 0 or 1, is 1. -/
theorem examined_iff {n : Nat} {b : Bool} {P : Prop} (hb : b = true ↔ P) :
    n ≤ 1 ∧ (decide (n = 0) || b) = true ↔ n ≤ 1 ∧ (n = 1 → P) := by
  rw [Bool.or_eq_true, decide_eq_true_eq, hb]
  constructor
  · rintro ⟨h, hn | hp⟩
    · exact ⟨h, by omega⟩
    · exact ⟨h, fun _ => hp⟩
  · rintro ⟨h, hp⟩
    by_cases hn : n = 0
    · exact ⟨h, .inl hn⟩
    · exact ⟨h, .inr (hp (by omega))⟩

/-- The RANGE check is the ranges of section 10.3 (R179). -/
theorem rangeOk_iff : rangeOk img = true ↔ ImageRanges (imageByte img) (imageWord img) := by
  have hreader := examined_iff (n := imageByte img 8) (readerRangeOk_iff img)
  have hinduction := examined_iff (n := imageByte img 42) (inductionRangeOk_iff img)
  simp only [rangeOk, Bool.and_eq_true, within_iff, imageWord_le, imageByte_le, Nat.zero_le,
    true_and, and_true, and_assoc, rateOfDivide_isSome, decide_eq_true_eq, List.all_eq_true, List.mem_range, outletRangeOk_iff,
    windowRangeOk_iff, validStation, ImageRanges, List.mem_cons, List.not_mem_nil, or_false,
    forall_eq_or_imp, forall_eq]
  constructor
  · rintro ⟨hrate, h2, h2', h3, h3', h4, h4', h5, h5', h6, h7, h7', h8, hr, h14, h15, h23, -,
      -, h25', hlt, h27, h29, h30, h30', h32, h34, h36, h36', h37, h37', h38, h38', h39, h41,
      h41', h42, hi, h52, h52', -, hlow, houtlets, hwindows⟩
    exact ⟨hrate, h2, h2', h3, h3', h4, h4', h5, h5', h6, h7, h7', h8, (hreader.mp ⟨h8, hr⟩).2, h14,
      h15, h23, hlt, h25', h27, h29, h30, h30', h32, h34, h36, h36', h37, h37', h38, h38', h39, h41,
      h41', h42, (hinduction.mp ⟨h42, hi⟩).2, h52, h52', hlow, houtlets, hwindows⟩
  · rintro ⟨hrate, h2, h2', h3, h3', h4, h4', h5, h5', h6, h7, h7', h8, hr, h14, h15, h23, hlt, h25',
      h27, h29, h30, h30', h32, h34, h36, h36', h37, h37', h38, h38', h39, h41, h41', h42, hi, h52,
      h52', hlow, houtlets, hwindows⟩
    exact ⟨hrate, h2, h2', h3, h3', h4, h4', h5, h5', h6, h7, h7', h8, (hreader.mpr ⟨h8, hr⟩).2, h14,
      h15, h23, by omega, by omega, h25', hlt, h27, h29, h30, h30', h32, h34, h36, h36',
      h37, h37', h38, h38', h39, h41, h41', h42, (hinduction.mpr ⟨h42, hi⟩).2, h52, h52', by omega,
      hlow, houtlets, hwindows⟩

end

section
variable (c : NodeConfig)

theorem all_toList {α : Type} (q : Quad α) (p : α → Bool) :
    q.toList.all p = true ↔ ∀ k, p (q.get k) = true := by
  simp only [Quad.toList, List.all_cons, List.all_nil, Bool.and_true, Bool.and_eq_true,
    Fin.forall_fin_succ, Quad.get]
  simp

theorem minGap_le_largestGap (b : Band) : minGap c b ≤ largestGap c := by
  cases b <;> simp [minGap, largestGap]

theorem largestGap_lt_iff {m d : Nat} : m + largestGap c < d ↔ ∀ b, m + minGap c b < d := by
  constructor
  · intro h b
    have := minGap_le_largestGap c b
    omega
  · intro h
    have h1 := h .slow
    have h2 := h .normal
    have h3 := h .fast
    simp only [minGap, largestGap] at *
    omega

/-- The GEOMETRY check of one outlet (R180). -/
theorem outletGeometryOk_iff (o : OutletConfig) :
    outletGeometryOk c o = true ↔ (o.role ≠ .unused → c.armDistance + o.maxLength ≤ o.distance
      ∧ o.distance + o.maxLength < c.offerDistance) := by
  have hfit : c.armDistance ≤ o.distance ∧ o.maxLength ≤ o.distance - c.armDistance
      ∧ o.distance + o.maxLength < c.offerDistance
      ↔ c.armDistance + o.maxLength ≤ o.distance ∧ o.distance + o.maxLength < c.offerDistance := by
    omega
  simp only [outletGeometryOk, Bool.or_eq_true, decide_eq_true_eq, or_iff_not_imp_left, hfit]

/-- The GEOMETRY check is the conditions of R180. -/
theorem geometryOk_iff : geometryOk c = true ↔ ImageGeometry c := by
  simp only [geometryOk, ImageGeometry, Bool.and_eq_true, Bool.or_eq_true, Bool.not_eq_true',
    decide_eq_true_eq, all_toList, outletGeometryOk_iff, and_assoc, or_iff_not_imp_left,
    Bool.not_eq_false, largestGap_lt_iff]

theorem windowOutletsOk_iff (x : Window) :
    windowOutletsOk c x = true ↔ (x.base ≤ x.limit → (c.outlets.get x.outlet).role ≠ .unused
      ∧ ∀ v, x.carve = some v → (c.outlets.get v.outlet).role ≠ .unused) := by
  cases hv : x.carve <;>
    simp [windowOutletsOk, windowOn, outletUsed, hv, or_iff_not_imp_left]

/-- The WINDOW check is the conditions of R41. -/
theorem windowsOk_iff : windowsOk c = true ↔ ImageWindows c := by
  simp only [windowsOk, ImageWindows, Bool.and_eq_true, List.all_eq_true, Option.isNone_iff_eq_none,
    windowOutletsOk_iff]

end

section
variable (img : List Byte)

/-! ## The order of the checks (R176) -/

theorem imageFault_of_noImage (h : img.length < 256) : imageFault img = .noImage := if_pos h

theorem imageFault_of_checksum (hlen : 256 ≤ img.length) (h : byteSum (img.take 256) ≠ 0#8) :
    imageFault img = .checksum := by
  rw [imageFault, if_neg (by omega), if_pos h]

theorem imageFault_of_format (hlen : 256 ≤ img.length) (hsum : byteSum (img.take 256) = 0#8)
    (h : img.getD 0 0#8 ≠ 0xC4#8) : imageFault img = .format := by
  rw [imageFault, if_neg (by omega), if_neg (not_not.mpr hsum)]
  exact if_pos h

/-- The checks behind the format byte. -/
theorem imageFault_of_read (hlen : 256 ≤ img.length) (hsum : byteSum (img.take 256) = 0#8)
    (hform : img.getD 0 0#8 = 0xC4#8) :
    imageFault img = if rangeOk img = false then .range
      else if geometryOk (imageValues img) = false then .geometry
      else if windowsOk (imageValues img) = false then .window else .none := by
  rw [imageFault, if_neg (by omega), if_neg (not_not.mpr hsum)]
  exact if_neg (not_not.mpr hform)

/-- An image is good where every check passes. -/
theorem imageFault_eq_none_iff :
    imageFault img = .none ↔ 256 ≤ img.length ∧ byteSum (img.take 256) = 0#8
      ∧ img.getD 0 0#8 = 0xC4#8 ∧ ImageRanges (imageByte img) (imageWord img)
      ∧ ImageGeometry (imageValues img) ∧ ImageWindows (imageValues img) := by
  by_cases hlen : img.length < 256
  · simp [imageFault_of_noImage img hlen, hlen]
  rw [Nat.not_lt] at hlen
  by_cases hsum : byteSum (img.take 256) = 0#8
  swap
  · simp [imageFault_of_checksum img hlen hsum, hsum]
  by_cases hform : img.getD 0 0#8 = 0xC4#8
  swap
  · rw [imageFault_of_format img hlen hsum hform]
    simp only [reduceCtorEq, hform, false_and, and_false]
  rw [imageFault_of_read img hlen hsum hform, ← rangeOk_iff, ← geometryOk_iff, ← windowsOk_iff]
  cases rangeOk img <;> cases geometryOk (imageValues img) <;> cases windowsOk (imageValues img) <;>
    simp [hlen, hsum, -List.getD_eq_getElem?_getD, hform]

theorem imageFault_ne_strap : imageFault img ≠ .strap := by
  unfold imageFault
  repeat' split
  all_goals simp

/-! ## Where the image holds each value -/

theorem imageOutlets_get (k : OutletNo) : (imageValues img).outlets.get k = imageOutlet img k := by
  match k with
  | 0 => rfl
  | 1 => rfl
  | 2 => rfl
  | 3 => rfl

theorem roleOfCode_eq (n : Nat) :
    roleOfCode n = if n = 1 then .deck else if n = 2 then .stray else .unused := by
  unfold roleOfCode
  split <;> simp_all

theorem imageOutlet_eq (k : Nat) : imageOutlet img k =
    { role := if imageByte img (54 + 18 * k) = 1 then .deck
        else if imageByte img (54 + 18 * k) = 2 then .stray else .unused
      distance := imageWord img (55 + 18 * k), maxLength := imageWord img (57 + 18 * k)
      leadSlow := imageWord img (59 + 18 * k), leadNormal := imageWord img (61 + 18 * k)
      leadFast := imageWord img (63 + 18 * k), dwell := imageWord img (65 + 18 * k)
      homeTimeout := imageWord img (67 + 18 * k), confirmTimeout := imageWord img (69 + 18 * k)
      capacity := imageByte img (71 + 18 * k) } := by
  have hplace : ∀ i, 54 + 18 * k + i = 54 + i + 18 * k := fun i => by omega
  simp only [imageOutlet, roleOfCode_eq, hplace, Nat.reduceAdd]

theorem imageRate (n : Nat) :
    (n = 128 → (rateOfDivide n).getD .kbit125 = .kbit125)
      ∧ (n = 64 → (rateOfDivide n).getD .kbit125 = .kbit250)
      ∧ (n = 32 → (rateOfDivide n).getD .kbit125 = .kbit500) := by
  refine ⟨?_, ?_, ?_⟩ <;> (rintro rfl; rfl)

theorem imageWindow_places (j : Nat) :
    (imageWindow img j).base = imageWord img (126 + 9 * j)
      ∧ (imageWindow img j).limit = imageWord img (128 + 9 * j)
      ∧ (imageWindow img j).outlet.val = imageByte img (130 + 9 * j) % 4
      ∧ (imageByte img (131 + 9 * j) ≠ 1 → (imageWindow img j).carve = none)
      ∧ (imageByte img (131 + 9 * j) = 1 → ∃ v, (imageWindow img j).carve = some v
        ∧ v.low = imageByte img (132 + 9 * j) ∧ v.high = imageByte img (133 + 9 * j)
        ∧ v.outlet.val = imageByte img (134 + 9 * j) % 4) := by
  have hplace : ∀ i, 126 + 9 * j + i = 126 + i + 9 * j := fun i => by omega
  simp only [imageWindow, hplace, Nat.reduceAdd, Fin.val_ofNat, true_and]
  refine ⟨fun h => if_neg h, fun h => ?_⟩
  rw [if_pos h]
  exact ⟨_, rfl, rfl, rfl, rfl⟩

theorem imageValues_places : ImagePlaces (imageByte img) (imageWord img) (imageValues img) := by
  refine ⟨imageRate _, rfl, rfl, rfl, rfl, rfl, rfl, rfl, rfl, rfl, rfl, rfl, rfl, rfl, rfl, rfl, rfl,
    rfl, rfl, rfl, rfl, rfl, rfl, rfl, rfl, rfl, rfl, rfl, rfl, rfl, rfl, imageWatchSet_toNat img, rfl,
    rfl, rfl, fun k => ?_, rfl, fun j hj => ⟨imageWindow img j, ?_, imageWindow_places img j⟩⟩
  · rw [imageOutlets_get, imageOutlet_eq]
  · simp [imageValues, hj]

/-- An outlet of an image in range that is not UNUSED has a capacity of its range. -/
theorem capacity_of_ranges (h : ImageRanges (imageByte img) (imageWord img)) (k : OutletNo)
    (hrole : ((imageValues img).outlets.get k).role ≠ .unused) :
    1 ≤ ((imageValues img).outlets.get k).capacity
      ∧ ((imageValues img).outlets.get k).capacity ≤ 250 := by
  rw [imageOutlets_get, imageOutlet_eq] at hrole ⊢
  obtain ⟨-, -, -, -, -, -, -, -, -, -, -, -, -, -, -, -, -, -, -, -, -, -, -, houtlets, -⟩ := h
  have hne : imageByte img (54 + 18 * k) ≠ 0 := fun h0 => hrole (by simp [h0])
  obtain ⟨-, -, -, -, -, -, -, -, hcap⟩ := (houtlets k k.isLt).2 hne
  exact hcap

/-- What a good image guarantees (R179, R180, R41). -/
theorem good_image_fits {img : List Byte} (h : imageFault img = .none) (c : NodeConfig)
    (hc : c = imageValues img) :
    256 ≤ img.length ∧ byteSum (img.take 256) = 0 ∧ img.getD 0 0 = 0xC4
      ∧ (∀ n ∈ [c.manifest, c.coding, c.supervisory, c.downstream], 1 ≤ n ∧ n ≤ 30)
      ∧ 1 ≤ c.lapLimit ∧ c.lapLimit ≤ 7 ∧ c.tolerance ≤ 50
      ∧ 1 ≤ c.up01 ∧ c.up01 < c.up12 ∧ c.up12 ≤ 16380
      ∧ 1 ≤ c.stopThreshold ∧ c.stopThreshold ≤ 255
      ∧ 1 ≤ c.attemptLimit ∧ c.attemptLimit ≤ 15
      ∧ 100 ≤ c.statusPeriod ∧ c.statusPeriod ≤ 2000
      ∧ c.lowWater < c.highWater ∧ c.highWater ≤ 48
      ∧ c.offerDistance ≤ c.segmentLength
      ∧ (∀ k, (c.outlets.get k).role ≠ .unused →
          c.armDistance + (c.outlets.get k).maxLength ≤ (c.outlets.get k).distance
            ∧ (c.outlets.get k).distance + (c.outlets.get k).maxLength < c.offerDistance
            ∧ 1 ≤ (c.outlets.get k).capacity ∧ (c.outlets.get k).capacity ≤ 250)
      ∧ (c.induction = true → ∀ b, minGap c b + c.mergeWindow < c.mergeDistance)
      ∧ (c.induction = true → c.readerFitted = true → c.mergeDistance < c.readerDistance)
      ∧ c.windows.length = 8
      ∧ (∀ w ∈ c.windows.drop 4, w.carve = none)
      ∧ (∀ w ∈ c.windows, w.base ≤ w.limit → (c.outlets.get w.outlet).role ≠ .unused) := by
  subst hc
  obtain ⟨hlen, hsum, hform, hranges, ⟨houtlets, hoffer, hmerge⟩, hcarve, hwindows⟩ :=
    (imageFault_eq_none_iff img).mp h
  have hcapacity := capacity_of_ranges img hranges
  obtain ⟨-, hstations, -, ⟨hlap, hlap'⟩, -, -, htol, -, ⟨hup, hup', hup''⟩, -, hstop, ⟨hper, hper'⟩, -,
    -, -, -, ⟨hatt, hatt'⟩, -, -, -, -, ⟨-, hhigh⟩, hlow, -⟩ := hranges
  refine ⟨hlen, hsum, hform, ?_, hlap, hlap', htol, hup, hup', hup'', hstop,
    Nat.le_of_lt_succ (imageByte_lt img 29), hatt, hatt', hper, hper', hlow, hhigh, hoffer,
    fun k hk => ?_, fun hi b => ?_, fun hi => (hmerge hi).2, rfl, hcarve,
    fun x hx hon => (hwindows x hx hon).1⟩
  · intro n hn
    simp only [List.mem_cons, List.not_mem_nil, or_false] at hn hstations
    rcases hn with rfl | rfl | rfl | rfl
    · exact hstations 2 (.inl rfl)
    · exact hstations 3 (.inr (.inl rfl))
    · exact hstations 4 (.inr (.inr (.inl rfl)))
    · exact hstations 5 (.inr (.inr (.inr rfl)))
  · exact ⟨(houtlets k hk).1, (houtlets k hk).2, hcapacity k hk⟩
  · rw [Nat.add_comm]
    exact (hmerge hi).1 b

/-- The checks in their order, each with its reason. -/
theorem imageFault_order (b w : Nat → Nat) (hb : b = imageByte img) (hw : w = imageWord img) :
    (img.length < 256 ↔ imageFault img = .noImage)
      ∧ (256 ≤ img.length → (byteSum (img.take 256) ≠ 0#8 ↔ imageFault img = .checksum))
      ∧ (256 ≤ img.length → byteSum (img.take 256) = 0#8 →
          (img.getD 0 0#8 ≠ 0xC4#8 ↔ imageFault img = .format))
      ∧ (256 ≤ img.length → byteSum (img.take 256) = 0#8 → img.getD 0 0#8 = 0xC4#8 →
          (¬ImageRanges b w ↔ imageFault img = .range)
          ∧ (ImageRanges b w → (¬ImageGeometry (imageValues img) ↔ imageFault img = .geometry)
            ∧ (ImageGeometry (imageValues img) →
              (¬ImageWindows (imageValues img) ↔ imageFault img = .window)
              ∧ (ImageWindows (imageValues img) → imageFault img = .none)))) := by
  subst hb hw
  have hread := imageFault_of_read img
  have hlater : ∀ r : FaultReason, r = .noImage ∨ r = .checksum ∨ r = .format →
      256 ≤ img.length → byteSum (img.take 256) = 0#8 → img.getD 0 0#8 = 0xC4#8 →
      imageFault img ≠ r := by
    intro r hr hlen hsum hform
    rw [hread hlen hsum hform]
    rcases hr with rfl | rfl | rfl <;> (repeat' split) <;> simp
  refine ⟨⟨imageFault_of_noImage img, fun h => ?_⟩, fun hlen => ⟨imageFault_of_checksum img hlen,
    fun h hsum => ?_⟩, fun hlen hsum => ⟨imageFault_of_format img hlen hsum, fun h hform => ?_⟩,
    fun hlen hsum hform => ?_⟩
  · by_contra hlen
    rw [Nat.not_lt] at hlen
    by_cases hsum : byteSum (img.take 256) = 0#8
    · by_cases hform : img.getD 0 0#8 = 0xC4#8
      · exact hlater _ (.inl rfl) hlen hsum hform h
      · simp [imageFault_of_format img hlen hsum hform] at h
    · simp [imageFault_of_checksum img hlen hsum] at h
  · by_cases hform : img.getD 0 0#8 = 0xC4#8
    · exact hlater _ (.inr (.inl rfl)) hlen hsum hform h
    · simp [imageFault_of_format img hlen hsum hform] at h
  · exact hlater _ (.inr (.inr rfl)) hlen hsum hform h
  · rw [hread hlen hsum hform, ← rangeOk_iff, ← geometryOk_iff, ← windowsOk_iff]
    cases rangeOk img <;> cases geometryOk (imageValues img) <;> cases windowsOk (imageValues img) <;>
      simp

/-- Settles O16: each check is the conditions of section 10.3, taken in the order of R176. -/
theorem imageChecksDecideInOrder : Obligations.ImageChecksDecideInOrder := by
  refine ⟨fun img h c hc => good_image_fits h c hc, fun img b w hb hw => ?_⟩
  have hbytes : b = imageByte img := funext hb
  have hwords : w = imageWord img := funext fun i => by rw [hw, hbytes, imageWord]
  obtain ⟨hnoimage, hsum, hform, hrest⟩ := imageFault_order img b w hbytes hwords
  refine ⟨hnoimage, hsum, hform, hrest, imageFault_ne_strap img, ?_⟩
  rw [hbytes, hwords]
  exact imageValues_places img

end

end Sys2Proof.Machine

/-! # The Start Unit, segment clear and the encoder's pulse, and what every step keeps -/

namespace Sys2Proof.Machine

section
variable {belt : Bool} {s t : State}

/-! ## Segment clear (R184 to R186) -/

theorem effect_queueMissing (l : List Record) (s : State) : Effect belt s (queueMissing l s) := by
  unfold queueMissing
  induction l generalizing s with
  | nil => exact .refl s
  | cons r rest ih => exact (effect_queueNotice _ s).trans (ih _)

theorem effect_clearOffer (s : State) : Effect belt s (clearOffer s) :=
  effect_endOfferFrame_outbound (fun _ => none) s

/-- What segment clear does once the collections are empty. -/
theorem effect_clearSegment_emptied (s : State) :
    Effect true (emptyCollections (clearOffer s)) (clearSegment s) :=
  (effect_mapOutlets (f := clearOutlet) (fun _ => rfl) _).trans
    ((effect_occupancyFell _).trans ((effect_decidePermit _).trans
      ((effect_queueMissing _ _).trans (effect_arbitrate _))))

theorem effect_clearSegment (s : State) : Effect true s (clearSegment s) :=
  (effect_clearOffer s).trans (.trans (.empty _ rfl) (effect_clearSegment_emptied s))

theorem clearSegment_follows (hb : BagsKept s) : PermitFollowsConditions (clearSegment s) := by
  have hdecided : Effect true s (decidePermit (occupancyFell
      ((emptyCollections (clearOffer s)).mapOutlets clearOutlet))) :=
    (effect_clearOffer s).trans (.trans (.empty _ rfl)
      ((effect_mapOutlets (f := clearOutlet) (fun _ => rfl) _).trans
        ((effect_occupancyFell _).trans (effect_decidePermit _))))
  have hrest := Outcome.calm ((effect_queueMissing (clearedTagged s) (decidePermit (occupancyFell
      ((emptyCollections (clearOffer s)).mapOutlets clearOutlet)))).trans (effect_arbitrate _))
  exact hrest.2 (hdecided.keeps_bags hb) rfl

theorem clearSegment_empty (hreset : ResetMeansStart s) : ClearingEmpty (clearSegment s) := by
  refine (effect_clearSegment_emptied s).keeps_clearing ⟨?_, fun _ _ => ⟨rfl, rfl, rfl⟩⟩
  have hstart := ((effect_clearOffer (belt := true) s).trans (.empty _ rfl)).start_eq
  rwa [ResetMeansStart, hstart]

/-! ## Entry to RUN and FAULT (R181, R182) -/

/-- The node in RUN with the image's values, before its merge permit is decided (R181). -/
def runEntered (c : NodeConfig) (s : State) : State :=
  startStatus c.statusPeriod <| joinLine c.rate
    { s with
      start := { s.start with node := .run, faultReason := .none, image := c }
      outlets := ⟨findPusher c s 0, findPusher c s 1, findPusher c s 2, findPusher c s 3⟩
      induction := { s.induction with crowdView := freshCrowdView c } }

theorem enterRun_eq (c : NodeConfig) (s : State) :
    enterRun c s = if s.start.clearHeld then clearSegment (runEntered c s)
      else arbitrate (decidePermit (runEntered c s)) := rfl

/-- The node in FAULT with its reason, before it joins the line (R182). -/
def faultEntered (reason : FaultReason) (s : State) : State :=
  startStatus Config.faultStatusPeriod
    { s with start := { s.start with node := .fault, faultReason := reason } }

theorem enterFault_eq (reason : FaultReason) (rate : Option LineRate) (s : State) :
    enterFault reason rate s = match rate with
      | some r => arbitrate (joinLine r (faultEntered reason s))
      | none => faultEntered reason s := rfl

theorem effect_enterRun (c : NodeConfig) (s : State) :
    Effect true (runEntered c s) (enterRun c s) := by
  rw [enterRun_eq]
  split
  · exact effect_clearSegment _
  · exact effect_arbitrate_decidePermit _

/-- The node once reset is released, before the straps are judged (R175, R177). -/
def released (straps : BitVec 5) (pins : PinLevels) (s : State) : State :=
  { s with
    start :=
      { s.start with resetHeld := false, station := straps.toNat, clearHeld := pins.clear }
    position := { s.position with windowTimer := some 0 }
    outlets :=
      ⟨withLevels pins.carts.q0 pins.holds.q0 pins.homes.q0 s.outlets.q0,
        withLevels pins.carts.q1 pins.holds.q1 pins.homes.q1 s.outlets.q1,
        withLevels pins.carts.q2 pins.holds.q2 pins.homes.q2 s.outlets.q2,
        withLevels pins.carts.q3 pins.holds.q3 pins.homes.q3 s.outlets.q3⟩ }

theorem resetRelease_eq (straps : BitVec 5) (pins : PinLevels) (s : State) :
    execResetRelease straps pins s = .next (if powered s then s
      else if validStation straps.toNat then released straps pins s
      else faultEntered .strap (released straps pins s)) := rfl

/-- The end of START, by the checks of the image (R176). -/
theorem startSequenceEnd_eq (image : List Byte) (s : State) :
    execStartSequenceEnd image s = .next (if powered s = true ∧ s.start.node = .start then
      if imageFault image = .none then enterRun (imageValues image) s
      else enterFault (imageFault image) (faultRate image) s
    else s) := by
  unfold execStartSequenceEnd
  split
  · split
    · rw [if_pos ‹_›]
    · rename_i hne
      rw [if_neg hne]
  · rfl

/-! ## A step keeps what every command keeps -/

/-- The answer of every step, from that of the commands and of a quiet bit time. -/
theorem step_answers {I : State → Prop} (hpending : ∀ s l, I s → I { s with pending := l })
    (hexec : ∀ c s, I s → Answers (exec c s) I) (hbit : ∀ s, I s → I (passBit s)) (hs : I s) :
    Answers (step s) I := by
  unfold step
  split
  · exact hexec _ _ (hpending _ _ hs)
  · unfold idle
    split
    · exact hexec _ _ hs
    · exact answers_next (hbit _ hs)

theorem Answers.of_next {r : Result} {P : State → Prop} (h : Answers r P) (hr : r = .next t) : P t := by
  rw [hr, answers_next_iff] at h
  exact h

/-- What every outcome keeps and each command of the Start Unit and the encoder keeps, every step
keeps. -/
theorem step_keeps {I : State → Prop} (hpending : ∀ s l, I s → I { s with pending := l })
    (houtcome : ∀ s t, Outcome s t → I s → I t)
    (hstart : ∀ c, actsOnStart c = true → ∀ s, I s → Answers (exec c s) I)
    (hs : I s) (h : step s = .next t) : I t := by
  refine (step_answers hpending (fun c s hs => ?_) (fun s => ?_) hs).of_next h
  · cases hc : actsOnStart c with
    | true => exact hstart c hc s hs
    | false => exact (exec_outcome hc s).imp fun t ht => houtcome s t ht hs
  · exact houtcome s _ (.calm (effect_passBit s))

/-- The commands of the Start Unit and the encoder, one by one. -/
theorem actsOnStart_cases {P : Instr → Prop} (hreset : P .powerUpReset)
    (hrelease : ∀ straps pins, P (.resetRelease straps pins))
    (hend : ∀ image, P (.startSequenceEnd image)) (hassert : P .segmentClearAssert)
    (hfree : P .segmentClearRelease) (hpulse : P .encoderPulse) (c : Instr)
    (h : actsOnStart c = true) : P c := by
  cases c
  case powerUpReset => exact hreset
  case resetRelease straps pins => exact hrelease straps pins
  case startSequenceEnd image => exact hend image
  case segmentClearAssert => exact hassert
  case segmentClearRelease => exact hfree
  case encoderPulse => exact hpulse
  all_goals cases h

/-! ## The bounds of the collections (O4) -/

theorem bagsKept_reset (l : List Instr) : BagsKept { State.reset with pending := l } := by
  have hcount : ∀ c, State.reset.counter c ≤ 65535 := fun c =>
    (Counters_get_allZero c).le.trans (by simp)
  have hfill : ∀ k, (State.reset.outlets.get k).fill ≤ 255 := fun k => by
    rw [State.reset, Quad_get_all]
    simp [Outlet.reset]
  exact ⟨⟨Nat.zero_le _, Nat.zero_le _, Nat.zero_le _, Nat.zero_le _, Nat.zero_le _, Nat.zero_le _,
    Nat.zero_le _, hcount, hfill, Nat.zero_le _, Nat.zero_le _⟩, .nil, .nil⟩

theorem findPusher_fill (c : NodeConfig) (s : State) (k : OutletNo) :
    (findPusher c s k).fill = (s.outlets.get k).fill := by
  unfold findPusher
  dsimp only
  split <;> rfl

theorem bagsKept_runEntered (c : NodeConfig) (h : BagsKept s) : BagsKept (runEntered c s) := by
  obtain ⟨⟨ht, he, hp, ha, hn, hc, hx, hcount, hfill, hrest⟩, hasc, hrefs⟩ := h
  refine ⟨⟨ht, he, hp, ha, hn, hc, hx, hcount, fun k => ?_, hrest⟩, hasc, hrefs⟩
  rw [show ((runEntered c s).outlets.get k) = findPusher c s k by match k with
    | 0 => rfl
    | 1 => rfl
    | 2 => rfl
    | 3 => rfl]
  rw [findPusher_fill]
  exact hfill k

theorem bagsKept_faultEntered (reason : FaultReason) (h : BagsKept s) :
    BagsKept (faultEntered reason s) := h

theorem bagsKept_enterFault (reason : FaultReason) (rate : Option LineRate) (h : BagsKept s) :
    BagsKept (enterFault reason rate s) := by
  rw [enterFault_eq]
  cases rate with
  | none => exact h
  | some r => exact (effect_arbitrate (belt := true) _).keeps_bags (s := joinLine r _) h

theorem bagsKept_released (straps : BitVec 5) (pins : PinLevels) (h : BagsKept s) :
    BagsKept (released straps pins s) := by
  obtain ⟨⟨ht, he, hp, ha, hn, hc, hx, hcount, hfill, hrest⟩, hasc, hrefs⟩ := h
  refine ⟨⟨ht, he, hp, ha, hn, hc, hx, hcount, fun k => ?_, hrest⟩, hasc, hrefs⟩
  match k with
  | 0 => exact hfill 0
  | 1 => exact hfill 1
  | 2 => exact hfill 2
  | 3 => exact hfill 3

theorem countPulse_position (s : State) : (countPulse s).position = { s.position with
    counter := s.position.counter + 1#24, windowCount := min 4095 (s.position.windowCount + 1) } := by
  unfold countPulse
  dsimp only
  split <;> rfl

/-- A pulse changes the belt's position and a flag. -/
theorem countPulse_eq (s : State) : countPulse s = { s with
    position := (countPulse s).position, supervision := (countPulse s).supervision } := by
  unfold countPulse
  dsimp only
  split <;> rfl

theorem countPulse_supervision (s : State) :
    (countPulse s).supervision.counters = s.supervision.counters
      ∧ (countPulse s).supervision.statusDue = s.supervision.statusDue := by
  unfold countPulse
  dsimp only
  split <;> exact ⟨rfl, rfl⟩

theorem bagsKept_countPulse (h : BagsKept s) : BagsKept (countPulse s) := by
  obtain ⟨⟨ht, he, hp, ha, hn, hc, hx, hcount, hfill, -, hb⟩, hasc, hrefs⟩ := h
  rw [countPulse_eq]
  refine ⟨⟨ht, he, hp, ha, hn, hc, hx, fun c => ?_, hfill, ?_, hb⟩, hasc, hrefs⟩
  · rw [State.counter]
    simp only [(countPulse_supervision s).1]
    exact hcount c
  · rw [countPulse_position]
    exact Nat.min_le_left _ _

theorem bagsKept_startCommand (c : Instr) (hc : actsOnStart c = true) (s : State)
    (hs : BagsKept s) : Answers (exec c s) BagsKept := by
  refine actsOnStart_cases (P := fun c => Answers (exec c s) BagsKept) ?_ (fun straps pins => ?_) (fun image => ?_)
    ?_ ?_ ?_ c hc
  · exact answers_next (bagsKept_reset _)
  · show Answers (execResetRelease straps pins s) _
    rw [resetRelease_eq]
    refine answers_next ?_
    split
    · exact hs
    · have h := bagsKept_released straps pins hs
      split
      · exact h
      · exact bagsKept_faultEntered .strap h
  · show Answers (execStartSequenceEnd image s) _
    rw [startSequenceEnd_eq]
    refine answers_next ?_
    split
    · split
      · exact (effect_enterRun _ s).keeps_bags (bagsKept_runEntered _ hs)
      · exact bagsKept_enterFault _ _ hs
    · exact hs
  · refine answers_next ?_
    split
    · dsimp only
      split
      · exact (effect_clearSegment _).keeps_bags (s := s.mapStart _) hs
      · exact hs
    · exact hs
  · refine answers_next ?_
    split
    · exact hs
    · exact hs
  · refine answers_next ?_
    split
    · exact bagsKept_countPulse hs
    · exact hs

/-! ## The records' states and lap marks (O4) -/

theorem recordsMarked_of_empty (h : heldRecords s = []) : RecordsMarked s := by
  have hnone : ∀ x, x ∉ heldRecords s := fun x hx => by simp [h] at hx
  refine ⟨⟨fun x hx => ?_, fun x hx => ?_, fun x hx => ?_⟩, fun x hx => absurd hx (hnone x), fun _ => h⟩
  · exact absurd (mem_heldRecords.mpr (.inl hx)) (hnone x)
  · exact absurd (mem_heldRecords.mpr (.inr (.inl hx))) (hnone x)
  · exact absurd (mem_heldRecords.mpr (.inr (.inr hx))) (hnone x)

theorem recordsKept_of_effect (h : Effect true s t) (hs : RecordsKept s) : RecordsKept t := by
  rw [recordsKept_iff] at hs ⊢
  obtain ⟨hb, hreset, hmarked, hlimit⟩ := hs
  refine ⟨h.keeps_bags hb, ?_, h.keeps_records hb hlimit hmarked, ?_⟩
  · rwa [ResetMeansStart, h.start_eq]
  · rwa [h.start_eq]

/-- A node with its reset released and in START holds no record (R175, R176). -/
theorem heldRecords_of_start (hs : RecordsKept s) (hn : s.start.node = .start) : heldRecords s = [] :=
  hs.2.2.2.2.1 (by simp [hn])

theorem start_of_not_powered (hreset : ResetMeansStart s) (h : ¬powered s = true) :
    s.start.node = .start := hreset (by simpa [powered] using h)

/-- A node without records that is in START or FAULT, and a node in RUN with a lap limit. -/
theorem recordsKept_of_empty (hb : BagsKept s) (hreset : ResetMeansStart s)
    (hempty : heldRecords s = []) (hlimit : s.start.node = .run → 1 ≤ s.start.image.lapLimit) :
    RecordsKept s :=
  recordsKept_iff.mpr ⟨hb, hreset, recordsMarked_of_empty hempty, hlimit⟩

theorem resetMeansStart_of_powered (h : powered s = true) (ht : t.start.resetHeld = s.start.resetHeld) :
    ResetMeansStart t := fun hheld => by simp [powered, ← ht, hheld] at h

theorem recordsKept_released (straps : BitVec 5) (pins : PinLevels) (hs : RecordsKept s)
    (hn : s.start.node = .start) : RecordsKept (released straps pins s) :=
  recordsKept_of_empty (bagsKept_released _ _ hs.1) nofun
    (heldRecords_of_start (s := s) hs hn)
    fun hrun => by simp [released, hn] at hrun

theorem recordsKept_faultEntered (reason : FaultReason) (hb : BagsKept s)
    (hreset : s.start.resetHeld = false) (hempty : heldRecords s = []) :
    RecordsKept (faultEntered reason s) :=
  recordsKept_of_empty (bagsKept_faultEntered _ hb)
    (fun h => by simp [faultEntered, startStatus, hreset] at h) hempty nofun

theorem recordsKept_startCommand (c : Instr) (hc : actsOnStart c = true) (s : State)
    (hs : RecordsKept s) : Answers (exec c s) RecordsKept := by
  refine actsOnStart_cases (P := fun c => Answers (exec c s) RecordsKept) ?_ (fun straps pins => ?_)
    (fun image => ?_) ?_ ?_ ?_ c hc
  · exact answers_next (recordsKept_of_empty (bagsKept_reset _) (fun _ => rfl) rfl nofun)
  · show Answers (execResetRelease straps pins s) _
    rw [resetRelease_eq]
    refine answers_next ?_
    split
    · exact hs
    · rename_i hoff
      have hn := start_of_not_powered hs.2.1 hoff
      split
      · exact recordsKept_released straps pins hs hn
      · exact recordsKept_faultEntered _ (bagsKept_released straps pins hs.1) rfl
          (heldRecords_of_start (s := s) hs hn)
  · show Answers (execStartSequenceEnd image s) _
    rw [startSequenceEnd_eq]
    refine answers_next ?_
    split
    · rename_i h
      obtain ⟨hpow, hn⟩ := h
      have hoff : s.start.resetHeld = false := by simpa [powered] using hpow
      have hempty := heldRecords_of_start hs hn
      split
      · rename_i hgood
        refine recordsKept_of_effect (effect_enterRun _ s) (recordsKept_of_empty
          (bagsKept_runEntered _ hs.1) (resetMeansStart_of_powered hpow rfl) hempty fun _ => ?_)
        exact (good_image_fits hgood _ rfl).2.2.2.2.1
      · have hfault := recordsKept_faultEntered (imageFault image) hs.1 hoff hempty
        rw [enterFault_eq]
        split
        · exact recordsKept_of_effect (s := joinLine _ _) (effect_arbitrate _) hfault
        · exact hfault
    · exact hs
  · refine answers_next ?_
    split
    · dsimp only
      split
      · exact recordsKept_of_effect (s := s.mapStart _) (effect_clearSegment _) hs
      · exact hs
    · exact hs
  · refine answers_next ?_
    split
    · exact recordsKept_of_effect (s := s.mapStart _) (effect_decidePermit _) hs
    · exact hs
  · refine answers_next ?_
    split
    · refine recordsKept_of_effect (effect_decidePermit _) ?_
      obtain ⟨hb, hrest⟩ := hs
      have hb' := bagsKept_countPulse hb
      rw [countPulse_eq] at hb' ⊢
      exact ⟨hb', hrest⟩
    · exact hs

/-- Settles O4: every change a command is made of keeps the two invariants, and so does each command of
the Start Unit and the encoder. -/
theorem stepsKeepBags : Obligations.StepsKeepBags :=
  ⟨fun _ _ hs h => step_keeps (fun _ _ hs => hs) (fun _ _ ht hs => ht.1.keeps_bags hs)
    bagsKept_startCommand hs h,
   fun _ _ hs h => step_keeps (fun _ _ hs => hs) (fun _ _ ht hs => recordsKept_of_effect ht.1 hs)
    recordsKept_startCommand hs h⟩

/-! ## The merge permit (O5) -/

theorem permitConditions_of_not_run (h : s.start.node ≠ .run) : permitConditions s = false := by
  simp [permitConditions, inRun, h]

/-- Outside RUN the permit is withdrawn. -/
theorem permitFollows_of_not_run (hs : PermitFollowsConditions s) (hn : s.start.node ≠ .run)
    (ht : t.start.node ≠ .run) (hpermit : t.induction.permit = s.induction.permit) :
    PermitFollowsConditions t := by
  rw [PermitFollowsConditions] at hs ⊢
  rw [hpermit, hs, permitConditions_of_not_run hn, permitConditions_of_not_run ht]

theorem permitKept_startCommand (c : Instr) (hc : actsOnStart c = true) (s : State)
    (hs : PermitKept s) : Answers (exec c s) PermitKept := by
  obtain ⟨hb, hreset, hpermit⟩ := hs
  refine ((bagsKept_startCommand c hc s hb).and ?_).imp fun t h => ⟨h.1, h.2⟩
  refine actsOnStart_cases (P := fun c => Answers (exec c s) fun t =>
    ResetMeansStart t ∧ PermitFollowsConditions t) ?_ (fun straps pins => ?_) (fun image => ?_)
    ?_ ?_ ?_ c hc
  · exact answers_next ⟨fun _ => rfl, (permitConditions_of_not_run (by simp [State.reset])).symm⟩
  · show Answers (execResetRelease straps pins s) _
    rw [resetRelease_eq]
    refine answers_next ?_
    split
    · exact ⟨hreset, hpermit⟩
    · rename_i hoff
      have hn := start_of_not_powered hreset hoff
      split
      · exact ⟨nofun, permitFollows_of_not_run hpermit (by simp [hn]) (by simp [released, hn]) rfl⟩
      · exact ⟨nofun, permitFollows_of_not_run hpermit (by simp [hn])
          (by simp [faultEntered, startStatus]) rfl⟩
  · show Answers (execStartSequenceEnd image s) _
    rw [startSequenceEnd_eq]
    refine answers_next ?_
    split
    · rename_i h
      obtain ⟨hpow, hn⟩ := h
      split
      · have hstart := (effect_enterRun (imageValues image) s).start_eq
        refine ⟨resetMeansStart_of_powered hpow (by rw [hstart]; rfl), ?_⟩
        rw [enterRun_eq]
        split
        · exact clearSegment_follows (bagsKept_runEntered _ hb)
        · exact permitFollows_arbitrate_decidePermit _
      · have hfault : PermitFollowsConditions (faultEntered (imageFault image) s) :=
          permitFollows_of_not_run hpermit (by simp [hn]) (by simp [faultEntered, startStatus]) rfl
        rw [enterFault_eq]
        split
        · rename_i rate _
          have hout : Outcome (joinLine rate (faultEntered (imageFault image) s)) _ :=
            .calm (effect_arbitrate _)
          exact ⟨resetMeansStart_of_powered hpow (by rw [hout.1.start_eq]; rfl), hout.2 hb hfault⟩
        · exact ⟨resetMeansStart_of_powered hpow rfl, hfault⟩
    · exact ⟨hreset, hpermit⟩
  · refine answers_next ?_
    split
    · rename_i h
      dsimp only
      split
      · refine ⟨resetMeansStart_of_powered h.1 ?_, clearSegment_follows (s := s.mapStart _) hb⟩
        rw [(effect_clearSegment _).start_eq]
        rfl
      · rename_i hrun
        have hn : s.start.node ≠ .run := by simpa [inRun] using hrun
        exact ⟨hreset, permitFollows_of_not_run hpermit hn hn rfl⟩
    · exact ⟨hreset, hpermit⟩
  · refine answers_next ?_
    split
    · exact ⟨hreset, rfl⟩
    · exact ⟨hreset, hpermit⟩
  · refine answers_next ?_
    split
    · refine ⟨?_, rfl⟩
      rw [countPulse_eq]
      exact hreset
    · exact ⟨hreset, hpermit⟩

theorem resetMeansStart_of_effect (h : Effect true s t) (hs : ResetMeansStart s) :
    ResetMeansStart t := by
  rwa [ResetMeansStart, h.start_eq]

/-- Settles O5: what a command changes on which the permit depends comes before the permit is decided
afresh. -/
theorem stepsKeepThePermit : Obligations.StepsKeepThePermit := fun _ _ hs h =>
  step_keeps (fun _ _ hs => hs)
    (fun _ _ ht hs => ⟨ht.1.keeps_bags hs.1, resetMeansStart_of_effect ht.1 hs.2.1,
      ht.2 hs.1 hs.2.2⟩)
    permitKept_startCommand hs h

/-! ## Segment clear and the records (O6) -/

theorem clearingEmpty_of_not_run (hreset : ResetMeansStart s) (h : s.start.node ≠ .run) :
    ClearingEmpty s := ⟨hreset, fun hrun => absurd hrun h⟩

theorem clearingEmpty_of_free (hreset : ResetMeansStart s) (h : s.start.clearHeld = false) :
    ClearingEmpty s := ⟨hreset, fun _ hclear => by simp [h] at hclear⟩

theorem clearingEmpty_startCommand (c : Instr) (hc : actsOnStart c = true) (s : State)
    (hs : ClearingEmpty s) : Answers (exec c s) ClearingEmpty := by
  refine actsOnStart_cases (P := fun c => Answers (exec c s) ClearingEmpty) ?_ (fun straps pins => ?_)
    (fun image => ?_) ?_ ?_ ?_ c hc
  · exact answers_next (clearingEmpty_of_not_run (fun _ => rfl) (by simp [State.reset]))
  · show Answers (execResetRelease straps pins s) _
    rw [resetRelease_eq]
    refine answers_next ?_
    split
    · exact hs
    · rename_i hoff
      have hn := start_of_not_powered hs.1 hoff
      split
      · exact clearingEmpty_of_not_run nofun (by simp [released, hn])
      · exact clearingEmpty_of_not_run nofun (by simp [faultEntered, startStatus])
  · show Answers (execStartSequenceEnd image s) _
    rw [startSequenceEnd_eq]
    refine answers_next ?_
    split
    · rename_i h
      split
      · have hreset : ResetMeansStart (runEntered (imageValues image) s) :=
          resetMeansStart_of_powered h.1 rfl
        rw [enterRun_eq]
        split
        · exact clearSegment_empty hreset
        · rename_i hclear
          exact (effect_arbitrate_decidePermit _).keeps_clearing
            (clearingEmpty_of_free hreset (Bool.eq_false_iff.mpr hclear))
      · have hfault : ClearingEmpty (faultEntered (imageFault image) s) :=
          clearingEmpty_of_not_run (resetMeansStart_of_powered h.1 rfl)
            (by simp [faultEntered, startStatus])
        rw [enterFault_eq]
        split
        · exact (effect_arbitrate (belt := true) _).keeps_clearing (s := joinLine _ _) hfault
        · exact hfault
    · exact hs
  · refine answers_next ?_
    split
    · dsimp only
      split
      · exact clearSegment_empty (s := s.mapStart _) hs.1
      · rename_i hrun
        exact clearingEmpty_of_not_run (s := s.mapStart _) hs.1 (by simpa [inRun] using hrun)
    · exact hs
  · refine answers_next ?_
    split
    · exact clearingEmpty_of_free hs.1 rfl
    · exact hs
  · refine answers_next ?_
    split
    · rw [countPulse_eq]
      exact hs
    · exact hs

/-- Settles O6: no effect makes a record on a clearing node, and the assertion empties the
collections. -/
theorem clearingNodeHoldsNoBag : Obligations.ClearingNodeHoldsNoBag := fun _ _ hs h =>
  step_keeps (fun _ _ hs => hs) (fun _ _ ht hs => ht.1.keeps_clearing hs) clearingEmpty_startCommand
    hs h

/-! ## The request queue (O7) -/

theorem requestsInOrder_startCommand (c : Instr) (hc : actsOnStart c = true) (s : State)
    (hs : RequestsInOrder s) : Answers (exec c s) RequestsInOrder := by
  refine actsOnStart_cases (P := fun c => Answers (exec c s) RequestsInOrder) ?_
    (fun straps pins => ?_) (fun image => ?_) ?_ ?_ ?_ c hc
  · exact answers_next ⟨.nil, nofun, fun _ => rfl⟩
  · show Answers (execResetRelease straps pins s) _
    rw [resetRelease_eq]
    refine answers_next ?_
    split
    · exact hs
    · split
      · exact hs
      · exact hs
  · show Answers (execStartSequenceEnd image s) _
    rw [startSequenceEnd_eq]
    refine answers_next ?_
    split
    · split
      · exact (effect_enterRun _ s).keeps_requests (s := runEntered _ s) hs
      · rw [enterFault_eq]
        split
        · exact (effect_arbitrate (belt := true) _).keeps_requests (s := joinLine _ _) hs
        · exact hs
    · exact hs
  · refine answers_next ?_
    split
    · dsimp only
      split
      · exact (effect_clearSegment _).keeps_requests (s := s.mapStart _) hs
      · exact hs
    · exact hs
  · refine answers_next ?_
    split
    · exact hs
    · exact hs
  · refine answers_next ?_
    split
    · rw [countPulse_eq]
      exact hs
    · exact hs

/-- Settles O7: every change of the request queue keeps its order, and a record that leaves takes its
request with it. -/
theorem stepsKeepRequests : Obligations.StepsKeepRequests := fun _ _ hs h =>
  step_keeps (fun _ _ hs => hs)
    (fun _ _ ht hs => ⟨ht.1.keeps_bags hs.1, ht.1.keeps_requests hs.2⟩)
    (fun c hc s hs => ((bagsKept_startCommand c hc s hs.1).and
      (requestsInOrder_startCommand c hc s hs.2)).imp fun _ h => h)
    hs h

/-! ## The line (O8) -/

/-- A node with its transmitter idle, its receiver on and an empty buffer, or off. -/
theorem lineKept_of_fresh (hreset : ResetMeansStart s) (hidle : s.line.transmitter = .idle)
    (hbuffer : s.line.buffer = []) (hreceiver : s.line.receiver ≠ .body)
    (hstart : s.start.node = .start → s.line.receiver = .off)
    (hdue : s.supervision.statusDue ≠ .held) : LineKept s := by
  refine ⟨hreset, fun hn => ⟨hstart hn, hidle⟩, ⟨?_, ?_, ?_, ?_⟩, fun hb => absurd hb hreceiver,
    fun _ => hbuffer⟩
  · simp [hidle, heldFrame]
  · simp [hidle, heldFrame, hdue]
  · simp [hidle]
  · simp [hidle]

/-- A node in START has a quiet line (R176). -/
theorem quiet_of_start (hs : LineKept s) (hn : s.start.node = .start) :
    s.line.receiver = .off ∧ s.line.transmitter = .idle ∧ s.line.buffer = []
      ∧ s.supervision.statusDue ≠ .held := by
  obtain ⟨hoff, hidle⟩ := hs.2.1 hn
  exact ⟨hoff, hidle, hs.2.2.2.2 (by simp [hoff]), statusDue_ne_held_of_idle hidle hs⟩

theorem lineKept_released (straps : BitVec 5) (pins : PinLevels) (hs : LineKept s)
    (hn : s.start.node = .start) : LineKept (released straps pins s) := by
  obtain ⟨hoff, hidle, hbuffer, hdue⟩ := quiet_of_start hs hn
  exact lineKept_of_fresh nofun hidle hbuffer (by simp [released, hoff]) (fun _ => hoff) hdue

theorem lineKept_faultEntered (reason : FaultReason) (hreset : s.start.resetHeld = false)
    (hoff : s.line.receiver = .off) (hidle : s.line.transmitter = .idle)
    (hbuffer : s.line.buffer = []) : LineKept (faultEntered reason s) :=
  lineKept_of_fresh (fun h => by simp [faultEntered, startStatus, hreset] at h) hidle hbuffer
    (by simp [faultEntered, startStatus, hoff]) (fun _ => hoff) (by simp [faultEntered, startStatus])

theorem lineKept_startCommand (c : Instr) (hc : actsOnStart c = true) (s : State)
    (hs : LineKept s) : Answers (exec c s) LineKept := by
  refine actsOnStart_cases (P := fun c => Answers (exec c s) LineKept) ?_ (fun straps pins => ?_)
    (fun image => ?_) ?_ ?_ ?_ c hc
  · exact answers_next (lineKept_of_fresh (fun _ => rfl) rfl rfl (by simp [State.reset])
      (fun _ => rfl) (by simp [State.reset]))
  · show Answers (execResetRelease straps pins s) _
    rw [resetRelease_eq]
    refine answers_next ?_
    split
    · exact hs
    · rename_i hoff
      have hn := start_of_not_powered hs.1 hoff
      obtain ⟨hrec, hidle, hbuffer, -⟩ := quiet_of_start hs hn
      split
      · exact lineKept_released straps pins hs hn
      · exact lineKept_faultEntered _ rfl hrec hidle hbuffer
  · show Answers (execStartSequenceEnd image s) _
    rw [startSequenceEnd_eq]
    refine answers_next ?_
    split
    · rename_i h
      obtain ⟨hpow, hn⟩ := h
      have hoff : s.start.resetHeld = false := by simpa [powered] using hpow
      obtain ⟨hrec, hidle, hbuffer, -⟩ := quiet_of_start hs hn
      split
      · refine (effect_enterRun _ s).keeps_line (lineKept_of_fresh
          (resetMeansStart_of_powered hpow rfl) hidle rfl ?_ nofun ?_)
        · simp [runEntered, startStatus, joinLine]
        · simp [runEntered, startStatus]
      · rw [enterFault_eq]
        split
        · refine (effect_arbitrate (belt := true) _).keeps_line (lineKept_of_fresh
            (resetMeansStart_of_powered hpow rfl) hidle rfl ?_ nofun ?_)
          · simp [joinLine]
          · simp [joinLine, faultEntered, startStatus]
        · exact lineKept_faultEntered _ hoff hrec hidle hbuffer
    · exact hs
  · refine answers_next ?_
    split
    · dsimp only
      split
      · exact (effect_clearSegment _).keeps_line (s := s.mapStart _) hs
      · exact hs
    · exact hs
  · refine answers_next ?_
    split
    · exact hs
    · exact hs
  · refine answers_next ?_
    split
    · refine (effect_decidePermit _).keeps_line (lineKept_congr hs ?_ ?_ (countPulse_supervision s).2 ?_)
        <;> rw [countPulse_eq]
      exact Iff.rfl
    · exact hs

/-- Settles O8: each change of the line keeps transmitter, sources, receiver and buffer in agreement. -/
theorem stepsKeepTheLine : Obligations.StepsKeepTheLine := fun _ _ hs h =>
  step_keeps (fun _ _ hs => hs) (fun _ _ ht hs => ht.1.keeps_line hs) lineKept_startCommand hs h

/-- Settles O3: the state of power-up reset has no records, an idle line and no permit. -/
theorem resetMeetsTheInvariants : Obligations.ResetMeetsTheInvariants := by
  have hbags : BagsKept State.reset := bagsKept_reset []
  have hreset : ResetMeansStart State.reset := fun _ => rfl
  have hrun : State.reset.start.node ≠ .run := by simp [State.reset]
  refine ⟨hbags, ⟨hbags, hreset, (permitConditions_of_not_run hrun).symm⟩,
    ⟨hbags, .nil, nofun, fun _ => rfl⟩, ?_, clearingEmpty_of_not_run hreset hrun,
    recordsKept_of_empty hbags hreset rfl fun h => absurd h hrun, rfl, rfl⟩
  exact lineKept_of_fresh hreset rfl rfl (by simp [State.reset]) (fun _ => rfl)
    (by simp [State.reset])

end

end Sys2Proof.Machine

/-! # Steps, the pulse and the speed window -/

namespace Sys2Proof.Machine

section
variable {s t : State}

/-! ## The queue of commands -/

theorem encoderPulse_eq (s : State) :
    exec .encoderPulse s = .next (if powered s then decidePermit (countPulse s) else s) := rfl

theorem enterFault_pending (reason : FaultReason) (rate : Option LineRate) (s : State) :
    (enterFault reason rate s).pending = s.pending := by
  rw [enterFault_eq]
  cases rate <;> simp [joinLine, faultEntered, startStatus]

/-- Every command answers a next state and leaves the queue of commands as it found it. -/
theorem exec_pending (c : Instr) (s : State) :
    Answers (exec c s) fun t => t.pending = s.pending := by
  cases hc : actsOnStart c with
  | false => exact (exec_outcome hc s).imp fun _ h => h.1.pending_eq
  | true =>
    refine actsOnStart_cases (P := fun c => Answers (exec c s) fun t => t.pending = s.pending)
      (answers_next rfl) (fun straps pins => ?_) (fun image => ?_) ?_ ?_ ?_ c hc
    · show Answers (execResetRelease straps pins s) _
      rw [resetRelease_eq]
      refine answers_next ?_
      split
      · rfl
      · split <;> rfl
    · show Answers (execStartSequenceEnd image s) _
      rw [startSequenceEnd_eq]
      refine answers_next ?_
      split
      · split
        · exact (effect_enterRun _ s).pending_eq
        · exact enterFault_pending _ _ s
      · rfl
    · refine answers_next ?_
      split
      · dsimp only
        split
        · exact (effect_clearSegment _).pending_eq
        · rfl
      · rfl
    · refine answers_next ?_
      split <;> rfl
    · rw [encoderPulse_eq]
      refine answers_next ?_
      split
      · rw [(effect_decidePermit _).pending_eq, countPulse_eq]
      · rfl

/-- Settles O1: the step is the command's, and every command answers. -/
theorem stepTakesFrontCommand : Obligations.StepTakesFrontCommand := by
  intro c rest s hs
  have hstep : step s = exec c { s with pending := rest } := by rw [step, hs]
  refine ⟨hstep, ?_⟩
  rw [hstep]
  exact exec_pending c { s with pending := rest }

/-! ## An empty queue (log entry 4) -/

theorem actsOnStart_of_eventDue {c : Instr} (h : EventDue s c) : actsOnStart c = false := by
  cases h with
  | cabinEntry e rest c _ _ hk => rcases hk with ⟨-, rfl⟩ | ⟨-, rfl⟩ | ⟨-, rfl⟩ | ⟨-, rfl⟩ <;> rfl
  | _ => rfl

theorem step_of_empty (h : s.pending = []) : step s = idle s := by rw [step, h]

theorem dueEvents_eq_nil_iff :
    dueEvents s = [] ↔ s.start.resetHeld = true ∨ ∀ c, ¬EventDue s c := by
  simp only [List.eq_nil_iff_forall_not_mem, mem_dueEvents]
  cases s.start.resetHeld <;> simp

theorem idle_of_quiet (h : dueEvents s = []) : idle s = .next (passBit s) := by rw [idle, h]

theorem idle_of_due (hon : s.start.resetHeld = false) (h : ∃ c, EventDue s c) :
    ∃ c, EventDue s c ∧ idle s = exec c s := by
  cases hdue : dueEvents s with
  | nil =>
    obtain ⟨c, hc⟩ := h
    rcases dueEvents_eq_nil_iff.mp hdue with hoff | hnone
    · simp [hon] at hoff
    · exact absurd hc (hnone c)
  | cons c rest =>
    exact ⟨c, ((mem_dueEvents s c).mp (by simp [hdue])).2, by rw [idle, hdue]⟩

/-- What a step is: the command at the front, an event that is due, or a quiet bit time. -/
theorem step_cases (h : step s = .next t) :
    (∃ c rest, s.pending = c :: rest ∧ exec c { s with pending := rest } = .next t)
      ∨ (s.pending = [] ∧ Effect true s t) := by
  cases hp : s.pending with
  | cons c rest =>
    rw [step, hp] at h
    exact .inl ⟨c, rest, rfl, h⟩
  | nil =>
    rw [step_of_empty hp] at h
    refine .inr ⟨rfl, ?_⟩
    cases hdue : dueEvents s with
    | nil =>
      rw [idle_of_quiet hdue] at h
      cases h
      exact effect_passBit s
    | cons c rest =>
      rw [idle, hdue] at h
      have hc := actsOnStart_of_eventDue ((mem_dueEvents s c).mp (by simp [hdue])).2
      exact ((exec_outcome hc s).of_next h).1

/-! ## A quiet bit time -/

/-- The line after a bit time. -/
theorem tickLine_eq (u : LineInterface) :
    tickLine u = { u with
      idleCount := (tickLine u).idleCount, transmitter := (tickLine u).transmitter } := by
  rcases tickLine_cases u with ⟨-, h⟩ | ⟨-, -, h⟩ <;> rw [h]
  rfl

/-- A bit time counts nothing where the node takes no part in the line or is sending (R115, R117). -/
theorem tickLine_of_still {u : LineInterface}
    (h : u.receiver = .off ∨ ∃ h, u.transmitter = .sending h) : tickLine u = u := by
  rcases tickLine_cases u with ⟨-, he⟩ | ⟨hoff, hsend, -⟩
  · exact he
  · rcases h with h | ⟨f, h⟩
    · exact absurd h hoff
    · exact absurd h (hsend f)

theorem tickLine_of_idle {u : LineInterface} (hon : u.receiver ≠ .off)
    (hsend : ∀ h, u.transmitter ≠ .sending h) : tickLine u = idleBits 1 u := by
  rcases tickLine_cases u with ⟨h | ⟨f, h⟩, -⟩ | ⟨-, -, h⟩
  · exact absurd h hon
  · exact absurd h (hsend f)
  · exact h

/-- The line at a bit time's end: its counts, and the bits of the millisecond in progress. -/
def bitPassed (s : State) : LineInterface :=
  { tickLine s.line with
    msBits := if s.line.msBits + 1 < bitsPerMs s.line.rate then s.line.msBits + 1 else 0 }

theorem passBit_eq (hon : s.start.resetHeld = false) :
    passBit s = if s.line.msBits + 1 < bitsPerMs s.line.rate then { s with line := bitPassed s }
      else passMs { s with line := bitPassed s } := by
  have hpow : powered s = true := by simp [powered, hon]
  have hline := tickLine_eq s.line
  have hbits : (tickLine s.line).msBits = s.line.msBits := by rw [hline]
  have hrate : (tickLine s.line).rate = s.line.rate := by rw [hline]
  rw [passBit, if_pos hpow, tickTimebase]
  simp only [State.mapLine, hbits, hrate, bitPassed]
  by_cases hlt : s.line.msBits + 1 < bitsPerMs s.line.rate
  · simp only [if_pos hlt]
  · simp only [if_neg hlt]

theorem bitPassed_still
    (h : s.line.receiver = .off ∨ ∃ h, s.line.transmitter = .sending h) :
    (bitPassed s).idleCount = s.line.idleCount
      ∧ (bitPassed s).transmitter = s.line.transmitter := by
  rw [bitPassed, tickLine_of_still h]
  exact ⟨rfl, rfl⟩

theorem bitPassed_idle (hon : s.line.receiver ≠ .off) (hsend : ∀ h, s.line.transmitter ≠ .sending h) :
    (bitPassed s).idleCount = min 255 (s.line.idleCount + 1)
      ∧ (∀ h len n, s.line.transmitter = .backoff h len n →
        (bitPassed s).transmitter = .backoff h len (min len (n + 1)))
      ∧ ((∀ h len n, s.line.transmitter ≠ .backoff h len n) →
        (bitPassed s).transmitter = s.line.transmitter) := by
  rw [bitPassed, tickLine_of_idle hon hsend]
  refine ⟨rfl, fun h len n he => by simp [idleBits, he], fun hne => ?_⟩
  cases htr : s.line.transmitter with
  | backoff h len n => exact absurd htr (hne h len n)
  | _ => simp [idleBits, htr]

theorem tickStage_eq (o : Outbound) :
    { o with stage := tickStage o.stage } = { o with
      stage := match o.stage with
        | .listening n => .listening (n + 1)
        | .resting n => .resting (n + 1)
        | other => other } := by
  cases h : o.stage <;> rfl

/-- Settles O2: `EventDue` says what is due, and a quiet bit time is a bit of the line and of the
timebase. -/
theorem emptyQueueIdles : Obligations.EmptyQueueIdles := by
  intro s hp
  rw [step_of_empty hp]
  refine ⟨fun hheld => ?_, fun hon hdue => idle_of_due hon hdue, fun hon hnone older bits holder hbits => ?_⟩
  · rw [idle_of_quiet (dueEvents_eq_nil_iff.mpr (.inl hheld)), passBit, if_neg (by simp [powered, hheld])]
  · have hbits : bits = bitsPerMs s.line.rate := by
      rw [hbits]
      cases s.line.rate <;> rfl
    have hpass := passBit_eq hon
    have hline : (passBit s).line = bitPassed s := by
      rw [hpass]
      split <;> rfl
    subst holder hbits
    refine ⟨passBit s, idle_of_quiet (dueEvents_eq_nil_iff.mpr (.inr hnone)), ?_, ?_, ?_, ?_, ?_⟩
    · rw [hline, bitPassed, tickLine_eq]
    · rw [hline]
      exact bitPassed_still
    · rw [hline]
      exact bitPassed_idle
    · intro hlt
      rw [hline, hpass, if_pos hlt]
    · intro hle
      rw [hline, hpass, if_neg (Nat.not_lt.mpr hle)]
      refine ⟨rfl, ?_⟩
      exact congrArg (fun f => s.handoff.outbound.map f) (funext tickStage_eq)

/-! ## Counters (R166, R168) -/

/-- Settles O10. -/
theorem countersRiseAndStop : Obligations.CountersRiseAndStop := by
  intro c s
  rw [bump_eq]
  refine ⟨fun d hd => raised_get_other _ hd, raised_get_same c _, ?_, rfl⟩
  simp [raised, State.counter]

/-! ## The encoder's pulse (R1, R2, R7) -/

theorem countPulse_flags (s : State) :
    countPulse s = { s with
      position := { s.position with
        counter := s.position.counter + 1#24, windowCount := min 4095 (s.position.windowCount + 1) }
      supervision := { s.supervision with
        flags := { s.supervision.flags with overspeed :=
          s.supervision.flags.overspeed || decide (s.position.windowCount = 4094) } } } := by
  unfold countPulse
  dsimp only
  by_cases h : s.position.windowCount = 4094
  · rw [if_pos (by simp [h, Config.windowLimit])]
    simp [h, setOverspeed, State.mapFlags, State.mapPosition, State.mapSupervision, Config.windowLimit]
  · rw [if_neg (by simpa [Config.windowLimit] using h)]
    simp [h, State.mapPosition, Config.windowLimit]

theorem counter_succ_toNat (p : Position) : (p + 1#24).toNat = (p.toNat + 1) % 16777216 := by
  rw [BitVec.toNat_add]
  rfl

/-- The permit decided on a state is what its conditions give there afterwards. -/
theorem decidePermit_eq (s : State) :
    decidePermit s = { s with
      induction := { s.induction with permit := permitConditions (decidePermit s) } } := rfl

/-- Only a pulse and a power-up reset move the position counter. -/
theorem exec_counter {c : Instr} (hpulse : c ≠ .encoderPulse) (hreset : c ≠ .powerUpReset) (s : State) :
    Answers (exec c s) fun t => t.position.counter = s.position.counter := by
  cases hc : actsOnStart c with
  | false => exact (exec_outcome hc s).imp fun _ h => h.1.counter_eq
  | true =>
    revert hpulse hreset
    refine actsOnStart_cases (P := fun c => c ≠ .encoderPulse → c ≠ .powerUpReset →
      Answers (exec c s) fun t => t.position.counter = s.position.counter)
      (fun _ h => absurd rfl h) (fun straps pins _ _ => ?_) (fun image _ _ => ?_) (fun _ _ => ?_)
      (fun _ _ => ?_) (fun h => absurd rfl h) c hc
    · show Answers (execResetRelease straps pins s) _
      rw [resetRelease_eq]
      refine answers_next ?_
      split
      · rfl
      · split <;> rfl
    · show Answers (execStartSequenceEnd image s) _
      rw [startSequenceEnd_eq]
      refine answers_next ?_
      split
      · split
        · exact (effect_enterRun _ s).counter_eq
        · rw [enterFault_eq]
          split
          · exact (effect_arbitrate (belt := true) _).counter_eq
          · rfl
      · rfl
    · refine answers_next ?_
      split
      · dsimp only
        split
        · exact (effect_clearSegment _).counter_eq
        · rfl
      · rfl
    · refine answers_next ?_
      split <;> rfl

/-- Settles O18: the pulse by `countPulse_flags`; every other change leaves the position counter. -/
theorem pulseAdvancesTheBelt : Obligations.PulseAdvancesTheBelt := by
  refine ⟨fun s hon => ?_, fun s t hpulse hreset hstep => ?_⟩
  · have hpow : powered s = true := by simp [powered, hon]
    rw [encoderPulse_eq, if_pos hpow, countPulse_flags]
    refine ⟨_, rfl, counter_succ_toNat _, fun hle => ?_, rfl, ?_⟩
    · show min 4095 (s.position.windowCount + 1) = _
      split <;> omega
    · simp [decidePermit]
  · rcases step_cases hstep with ⟨c, rest, hp, hexec⟩ | ⟨-, he⟩
    · rw [hp, List.head?_cons] at hpulse hreset
      exact (exec_counter (by simpa using hpulse) (by simpa using hreset)
        { s with pending := rest }).of_next hexec
    · exact he.counter_eq

/-! ## The end of a speed window (R8 to R12) -/

theorem bandStep_normal (c : NodeConfig) (v : Nat) :
    bandStep c .normal v = if c.up12 ≤ v then .fast
      else if v + c.hysteresis < c.up01 then .slow else .normal := by
  have h : v < c.up01 - c.hysteresis ↔ v + c.hysteresis < c.up01 := by omega
  simp only [bandStep, h]

theorem bandStep_fast (c : NodeConfig) (v : Nat) :
    bandStep c .fast v = if v + c.hysteresis < c.up12 then .normal else .fast := by
  have h : v < c.up12 - c.hysteresis ↔ v + c.hysteresis < c.up12 := by omega
  simp only [bandStep, h]

/-- Settles O19: the window's end, band by band. -/
theorem windowEndMeasuresSpeed : Obligations.WindowEndMeasuresSpeed := by
  intro s hon
  have hpow : powered s = true := by simp [powered, hon]
  refine ⟨decidePermit (s.mapPosition (endWindow (inRun s) s.image)), ?_, rfl, rfl, rfl, rfl, rfl,
    fun hn => ?_, fun hn => ?_, rfl⟩
  · show execSpeedWindowEnd s = _
    rw [execSpeedWindowEnd, if_pos hpow]
  · simp [endWindow, inRun, hn]
  · have hrun : inRun s = true := by simp [inRun, hn]
    simp only [decidePermit_rest, mapPosition_position, hrun, endWindow, if_true, image_def]
    refine ⟨decide_eq_true_iff, fun hb => ?_, fun hb => ?_, fun hb => ?_⟩
    · rw [hb, bandStep]
    · rw [hb, bandStep_normal]
    · rw [hb, bandStep_fast]

end

end Sys2Proof.Machine

/-! # The arbiter and the two queues of frames (sections 6.4 and 6.5) -/

namespace Sys2Proof.Machine

section
variable {s t : State}

/-! ## Full queues (R120, R121) -/

theorem bumpOutsideFault_counter (c : Counter) (s : State) :
    (bumpOutsideFault c s).counter c
      = if s.start.node = .fault then s.counter c else nextCount (s.counter c) := by
  unfold bumpOutsideFault
  split
  · rfl
  · exact bump_counter_same c s

/-- Settles O11: both queues hand over to the same drop. -/
theorem fullQueuesDropFrames : Obligations.FullQueuesDropFrames := by
  intro f s
  have hdrop : (setQueueDrop (bumpOutsideFault .droppedNotices s)).line = s.line
      ∧ (setQueueDrop (bumpOutsideFault .droppedNotices s)).supervision.flags.queueDrop = true
      ∧ (setQueueDrop (bumpOutsideFault .droppedNotices s)).counter .droppedNotices
        = if s.start.node = .fault then s.counter .droppedNotices
          else nextCount (s.counter .droppedNotices) :=
    ⟨by simp, rfl, bumpOutsideFault_counter _ s⟩
  refine ⟨fun h => ?_, fun h => ?_, fun h => ?_, fun h => ?_⟩
  · rw [queueAnswer, if_pos (by exact h)]
    rfl
  · rw [queueNotice, if_pos (by exact h)]
    rfl
  · rw [queueAnswer, if_neg (by exact Nat.not_lt.mpr h)]
    exact hdrop
  · rw [queueNotice, if_neg (by exact Nat.not_lt.mpr h)]
    exact hdrop

/-! ## The arbiter (R122, R123) -/

theorem takeBack_of_idle (h : s.line.transmitter = .idle) : takeBack s = s := by rw [takeBack, h]

theorem arbitrate_of_idle (hon : s.line.receiver ≠ .off) (h : s.line.transmitter = .idle) :
    arbitrate s = handOver s := by
  rw [arbitrate, if_neg hon, takeBack_of_idle h]
  simp only [h]

/-- A frame that waits for its first gap goes back to its source when an answer is there (R123). -/
theorem takeBack_of_answer {h : HeldFrame} (htr : s.line.transmitter = .waitGap h)
    (hsrc : h.source ≠ .answer) (hcol : h.collisions = 0) (hans : s.line.answers ≠ []) :
    takeBack s = setTransmitter .idle (markReturned h.source s) := by
  rw [takeBack, htr]
  exact if_pos ⟨hsrc, hcol, hans⟩

/-- The IDLE transmitter is handed the frame of the first source in turn that has one. -/
theorem handOver_of_first {src : FrameSource} {f : OutFrame}
    (hfirst : (FrameSource.answer :: sourcesFrom s.line.turn).find?
      (fun x => (sourceFrame s x).isSome) = some src)
    (hf : sourceFrame s src = some f) : handOver s = holdFrame src f s := by
  rw [handOver, hfirst]
  simp only [hf]

theorem gapEntered_holdFrame (src : FrameSource) (f : OutFrame) (s : State) :
    GapEntered ⟨src, f, 0⟩ s.line.idleCount (holdFrame src f s).line := by
  have h := gapEntered_enterWaitGap ⟨src, f, 0⟩ (markTaken src s)
  rwa [(markTaken_rest s src).2.2.2.2.1] at h

theorem handOver_of_answer {f : OutFrame} {rest : List OutFrame} (h : s.line.answers = f :: rest) :
    handOver s = holdFrame .answer f s :=
  handOver_of_first (by simp [sourceFrame, h]) (by simp [sourceFrame, h])

theorem handOver_of_notice {f : OutFrame} {rest : List OutFrame} (hans : s.line.answers = [])
    (h : s.line.notices = f :: rest)
    (hturn : s.line.turn = .notices ∨ (s.line.turn = .offer ∧ offerFrame s = none)
      ∨ (s.line.turn = .status ∧ s.supervision.statusDue ≠ .due ∧ offerFrame s = none)) :
    handOver s = holdFrame .notices f s := by
  refine handOver_of_first ?_ (by simp [sourceFrame, h])
  rcases hturn with ht | ⟨ht, ho⟩ | ⟨ht, hd, ho⟩
  · simp [sourcesFrom, sourceFrame, hans, h, ht]
  · simp [sourcesFrom, sourceFrame, hans, h, ht, ho]
  · simp [sourcesFrom, sourceFrame, hans, h, ht, hd, ho]

theorem handOver_of_status (hans : s.line.answers = []) (h : s.supervision.statusDue = .due)
    (hturn : s.line.turn = .status ∨ (s.line.turn = .notices ∧ s.line.notices = [])
      ∨ (s.line.turn = .offer ∧ offerFrame s = none ∧ s.line.notices = [])) :
    handOver s = holdFrame .status ⟨31, .status, statusPayload s⟩ s := by
  refine handOver_of_first ?_ (by rw [sourceFrame, if_pos h]; rfl)
  rcases hturn with ht | ⟨ht, hn⟩ | ⟨ht, ho, hn⟩
  · simp [sourcesFrom, sourceFrame, hans, h, ht]
  · simp [sourcesFrom, sourceFrame, hans, h, ht, hn]
  · simp [sourcesFrom, sourceFrame, hans, h, ht, ho, hn]

theorem handOver_of_offer {f : OutFrame} (hans : s.line.answers = []) (h : offerFrame s = some f)
    (hturn : s.line.turn = .offer ∨ (s.line.turn = .status ∧ s.supervision.statusDue ≠ .due)
      ∨ (s.line.turn = .notices ∧ s.line.notices = [] ∧ s.supervision.statusDue ≠ .due)) :
    handOver s = holdFrame .offer f s := by
  refine handOver_of_first ?_ (by rw [sourceFrame, h])
  rcases hturn with ht | ⟨ht, hd⟩ | ⟨ht, hn, hd⟩
  · simp [sourcesFrom, sourceFrame, hans, h, ht]
  · simp [sourcesFrom, sourceFrame, hans, h, ht, hd]
  · simp [sourcesFrom, sourceFrame, hans, h, ht, hn, hd]

/-- An offer whose frame has been handed over is ON LINE. -/
theorem offerStage_holdOffer {f : OutFrame} (h : offerFrame s = some f) :
    offerStage (holdFrame .offer f s) = some .onLine := by
  obtain ⟨o, ho, -⟩ := offerFrame_isSome h
  simp [holdFrame, offerStage, markTaken, setStage, ho]

/-- The idle count changes with the start of a frame alone. -/
theorem idleCount_enterWaitGap (h : HeldFrame) (s : State) :
    (enterWaitGap h s).line.idleCount = s.line.idleCount
      ∨ (enterWaitGap h s).line.idleCount = 0
        ∧ ∃ x, (enterWaitGap h s).line.transmitter = .sending x := by
  unfold enterWaitGap
  simp only [mapLine_line]
  split
  · exact .inr ⟨rfl, h, rfl⟩
  · exact .inl rfl

theorem idleCount_handOver (s : State) :
    (handOver s).line.idleCount = s.line.idleCount
      ∨ (handOver s).line.idleCount = 0 ∧ ∃ h, (handOver s).line.transmitter = .sending h := by
  unfold handOver
  split
  · exact .inl rfl
  · rename_i src _
    split
    · exact .inl rfl
    · rename_i f _
      have h := idleCount_enterWaitGap ⟨src, f, 0⟩ (markTaken src s)
      rwa [(markTaken_rest s src).2.2.2.2.1] at h

theorem idleCount_takeBack (s : State) : (takeBack s).line.idleCount = s.line.idleCount := by
  unfold takeBack
  split
  · split
    · simp [setTransmitter]
    · rfl
  · rfl

theorem idleCount_arbitrate (s : State) :
    (arbitrate s).line.idleCount = s.line.idleCount
      ∨ (arbitrate s).line.idleCount = 0 ∧ ∃ h, (arbitrate s).line.transmitter = .sending h := by
  unfold arbitrate
  split
  · exact .inl rfl
  · dsimp only
    split
    · have h := idleCount_handOver (takeBack s)
      rwa [idleCount_takeBack] at h
    · exact .inl (idleCount_takeBack s)

/-- An answer takes the place of another frame that waits for its first gap (R123). -/
theorem arbitrate_of_waiting {h : HeldFrame} {f : OutFrame} {rest : List OutFrame}
    (hon : s.line.receiver ≠ .off) (htr : s.line.transmitter = .waitGap h)
    (hsrc : h.source ≠ .answer) (hcol : h.collisions = 0) (hans : s.line.answers = f :: rest) :
    arbitrate s = holdFrame .answer f (setTransmitter .idle (markReturned h.source s)) := by
  have hback := takeBack_of_answer htr hsrc hcol (by simp [hans])
  have hidle : (takeBack s).line.transmitter = .idle := by rw [hback]; rfl
  have hanswers : (takeBack s).line.answers = f :: rest := by
    rw [hback]
    simpa [setTransmitter] using hans
  rw [arbitrate, if_neg hon]
  simp only [hidle, handOver_of_answer hanswers]
  rw [hback]

/-- Settles O12: the arbiter hands over the first frame in turn, once an answer has taken back what
waits. -/
theorem arbiterServesInTurn : Obligations.ArbiterServesInTurn := by
  intro s
  refine ⟨arbiterOnly_arbitrate s, idleCount_arbitrate s, fun hon hidle => ?_,
    fun h f rest hon htr hsrc hcol hans => ?_⟩
  · rw [arbitrate_of_idle hon hidle]
    refine ⟨fun f rest hans => ?_, fun hans f rest hn hturn => ?_, fun hans hdue hturn => ?_,
      fun hans f hf hturn => ?_⟩
    · rw [handOver_of_answer hans]
      exact ⟨gapEntered_holdFrame _ _ s, by simp [holdFrame, markTaken],
        by simp [holdFrame, markTaken]⟩
    · rw [handOver_of_notice hans hn hturn]
      exact gapEntered_holdFrame _ _ s
    · rw [handOver_of_status hans hdue hturn]
      refine ⟨gapEntered_holdFrame _ _ s, ?_⟩
      rw [holdFrame, (enterWaitGap_rest _ _).2.2.2.2.2.2.1]
      rfl
    · rw [handOver_of_offer hans hf hturn]
      exact ⟨gapEntered_holdFrame _ _ s, offerStage_holdOffer hf⟩
  · rw [arbitrate_of_waiting hon htr hsrc hcol hans]
    refine ⟨?_, fun hstatus => ?_, fun hoffer => ?_⟩
    · have hgap := gapEntered_holdFrame .answer f (setTransmitter .idle (markReturned h.source s))
      simpa [setTransmitter] using hgap
    · simp [holdFrame, markTaken, setTransmitter, statusDue_markReturned, hstatus]
    · simp [holdFrame, markTaken, setTransmitter, hoffer, markReturned, setStage, offerStage,
        Function.comp_def]

/-- What falls due stays due or is taken by the transmitter. -/
theorem statusDue_arbitrate (h : s.supervision.statusDue ≠ .notDue) :
    (arbitrate s).supervision.statusDue ≠ .notDue := by
  have hback : (takeBack s).supervision.statusDue ≠ .notDue := by
    unfold takeBack
    split
    · split
      · rw [(setTransmitter_rest _ _).2.2.2.2.2.2.1, statusDue_markReturned]
        split
        · simp
        · exact h
      · exact h
    · exact h
  unfold arbitrate
  split
  · exact h
  · dsimp only
    split
    · unfold handOver
      split
      · exact hback
      · split
        · exact hback
        · rw [holdFrame, (enterWaitGap_rest _ _).2.2.2.2.2.2.1, statusDue_markTaken]
          split
          · simp
          · exact hback
    · exact hback

/-! ## The merge permit (R150, R151) -/

theorem leadTravel_eq (s : State) (r : Record) :
    leadTravel s r = r.lead.elim 0 fun p => dist p s.position.counter := by
  unfold leadTravel
  cases r.lead <;> rfl

theorem trailTravel_eq (s : State) (r : Record) :
    trailTravel s r = r.trail.elim 0 fun p => dist p s.position.counter := by
  unfold trailTravel
  cases r.trail <;> rfl

/-- A record clears the merge zone behind it or ahead of it (R150). -/
theorem inMergeZone_eq_false_iff (s : State) (r : Record) :
    inMergeZone s r = false ↔
      (r.lead.elim 0 fun p => dist p s.position.counter)
          < (s.start.image.mergeDistance : Int) - minGap s.start.image s.position.band
            - s.start.image.mergeWindow
        ∨ (s.start.image.mergeDistance : Int) + minGap s.start.image s.position.band
          < (r.trail.elim 0 fun p => dist p s.position.counter) := by
  simp only [inMergeZone, image_def, leadTravel_eq, trailTravel_eq, decide_eq_false_iff_not, not_and_or,
    not_le]

/-- Settles O49. -/
theorem permitNeedsAllConditions : Obligations.PermitNeedsAllConditions := by
  rintro s _ rfl
  simp only [permitConditions, image_def, inRun, Bool.and_eq_true, Bool.not_eq_true',
    decide_eq_true_eq, List.any_eq_false, Bool.not_eq_true, and_assoc, inMergeZone_eq_false_iff]
  exact Iff.rfl

end

end Sys2Proof.Machine

/-! # The receiver (sections 6.2 and 6.3) -/

namespace Sys2Proof.Machine

section
variable {s t : State}

/-! ## The end of a frame -/

theorem endFrame_eq (s : State) : endFrame s = frameOver s := rfl

/-- A frame that ends with a count. -/
theorem bump_endFrame (c : Counter) (s : State) :
    bump c (endFrame s) = { frameOver s with supervision := raised c s.supervision } := by
  rw [bump_eq]
  rfl

/-- Settles O57: each damage has its counter, and a frame without a block ends. -/
theorem framesThatEndWithoutAction : Obligations.FramesThatEndWithoutAction := by
  refine ⟨fun s c h body => ⟨fun hon hstop => ?_, fun hon hstop hpar => ?_, fun hh hover => ?_,
    fun hh hends htest => ?_⟩, fun s body f hf hrow => ?_⟩
  · show Host.Outcome.next _ = _
    rw [if_pos ⟨hon, by simp [charSound, hstop]⟩, hstop, ← bump_endFrame]
    rfl
  · show Host.Outcome.next _ = _
    rw [if_pos ⟨hon, by simp [charSound, hpar]⟩, hstop, ← bump_endFrame]
    rfl
  · show Host.Outcome.next _ = _
    rw [if_pos ⟨by simp [hh], hover⟩, bump_endFrame]
  · show Host.Outcome.next _ = _
    rw [if_pos (by simp [badFrameEnds, hh, hends, htest]), bump_endFrame]
  · have hun : frameUnacted s f = true := by
      rcases hrow with h | h | h | h | h | ⟨hn, h | ⟨h1, h2, h3⟩⟩
      · simp [frameUnacted, h]
      · simp [frameUnacted, h, kindUnacted]
      · simp [frameUnacted, h, kindUnacted]
      · simp [frameUnacted, h, kindUnacted]
      · simp [frameUnacted, h, kindUnacted]
      · simp [frameUnacted, inFault, hn, h]
      · have hk : kindAnsweredInFault f.kind = false := by
          cases hkind : f.kind <;> simp_all [kindAnsweredInFault]
        simp [frameUnacted, inFault, hn, hk]
    show execUnactedFrame body s = _
    rw [execUnactedFrame, hf]
    simp only [hun, if_true]
    rfl

/-! ## Heads -/

theorem exec_frameHead_head {c : LineChar} (hmark : c.mark = true) (hsound : charSound c = true) :
    exec (.frameHead c) s = .next (receiveHead c.data s) := by
  show execFrameHead c s = _
  rw [execFrameHead, if_pos hsound, if_pos hmark]

/-- A head ends the frame in progress, which is truncated, and is then taken as in HUNT (R109, R113). -/
theorem receiveHead_eq (b : Byte) (hon : s.line.receiver ≠ .off) :
    ∃ u : State, receiveHead b s = takeHead b u
      ∧ u = { s with
        line := u.line
        supervision :=
          if s.line.receiver = .body then raised .truncated s.supervision else s.supervision }
      ∧ ∀ r buffer, { u.line with receiver := r, buffer := buffer, idleCount := 0 }
        = { s.line with receiver := r, buffer := buffer, idleCount := 0 } := by
  unfold receiveHead
  cases hr : s.line.receiver with
  | off => exact absurd hr hon
  | body =>
    refine ⟨_, rfl, ?_, fun r buffer => ?_⟩
    · rw [bump_endFrame]
      rfl
    · rw [bump_endFrame]
      rfl
  | hunt => exact ⟨s, rfl, rfl, fun _ _ => rfl⟩
  | discard => exact ⟨s, rfl, rfl, fun _ _ => rfl⟩

/-- What a head does (R109). -/
theorem headsBeginFrames (s : State) (c : LineChar) (base : SupervisionUnit) (hmark : c.mark = true)
    (hsound : charSound c = true) (hon : s.line.receiver ≠ .off)
    (hbase : base = (if s.line.receiver = .body then raised .truncated s.supervision
      else s.supervision)) :
    (c.data.toNat < 32 → (c.data.toNat = s.start.station ∨ c.data.toNat = 31) →
        exec (.frameHead c) s = .next { s with
          supervision := base
          line := { s.line with receiver := .body, buffer := [c.data], idleCount := 0 } })
      ∧ (c.data.toNat < 32 → c.data.toNat ≠ s.start.station → c.data.toNat ≠ 31 →
        exec (.frameHead c) s = .next { s with
          supervision := base
          line := { s.line with receiver := .discard, buffer := [], idleCount := 0 } })
      ∧ (32 ≤ c.data.toNat →
        exec (.frameHead c) s = .next { s with
          supervision := raised .checkErrors base, line := huntAgain s.line }) := by
  rw [exec_frameHead_head hmark hsound]
  obtain ⟨u, hu, hstate, hline⟩ := receiveHead_eq c.data hon
  rw [← hbase] at hstate
  have hstart : u.start = s.start := congrArg (·.start) hstate
  rw [hu, takeHead, hstart]
  refine ⟨fun hlt hstation => ?_, fun hlt hother hnot => ?_, fun hge => ?_⟩
  · rw [if_neg (by omega), if_pos (by simp only [Config.broadcast]; omega)]
    show Host.Outcome.next { u with
      line := { u.line with receiver := .body, buffer := [c.data], idleCount := 0 } } = _
    rw [hline, hstate]
  · rw [if_neg (by omega), if_neg (by simp only [Config.broadcast]; omega)]
    show Host.Outcome.next { u with
      line := { u.line with receiver := .discard, buffer := [], idleCount := 0 } } = _
    rw [hline, hstate]
  · rw [if_pos (by omega), bump_endFrame]
    show Host.Outcome.next { u with
      supervision := raised .checkErrors u.supervision
      line := { u.line with receiver := .hunt, buffer := [], idleCount := 0 } } = _
    rw [hline, hstate]
    rfl

/-! ## Body characters -/

theorem exec_frameHead_body {c : LineChar} (hmark : c.mark = false) (hsound : charSound c = true) :
    exec (.frameHead c) s = bodyCharacter c.data s := by
  show execFrameHead c s = _
  rw [execFrameHead, if_pos hsound, if_neg (by simp [hmark])]

theorem exec_frameHead_collect {c : LineChar} (hmark : c.mark = false) (hsound : charSound c = true)
    (hbody : s.line.receiver = .body) : exec (.frameHead c) s = collect c.data s := by
  rw [exec_frameHead_body hmark hsound, bodyCharacter, hbody]

/-- A body ends with the byte behind its payload (R110). -/
theorem bodyEnds_tail_iff {l : List Byte} {b : Byte} :
    bodyEnds (l ++ [b]).tail = true ↔
      ∃ n, (l ++ [b])[3]? = some n ∧ n.toNat ≤ 27 ∧ l.length = n.toNat + 4 := by
  match l with
  | [] => simp [bodyEnds]
  | [_] => simp [bodyEnds]
  | [_, _] => simp [bodyEnds]
  | [_, _, _] => simp [bodyEnds]
  | _ :: _ :: _ :: n :: rest =>
    simp [bodyEnds]

/-- A body that has ended does not end again. -/
theorem bodyEnds_append {l m : List Byte} (h : bodyEnds l = true) (hm : m ≠ []) :
    bodyEnds (l ++ m) = false := by
  match l with
  | [] => simp [bodyEnds] at h
  | [_] => simp [bodyEnds] at h
  | [_, _] => simp [bodyEnds] at h
  | _ :: _ :: n :: rest =>
    have hlen := List.length_pos_iff.mpr hm
    simp only [bodyEnds, List.cons_append, Bool.and_eq_true, Bool.and_eq_false_iff, decide_eq_true_eq,
      decide_eq_false_iff_not, List.length_append] at h ⊢
    omega

theorem length_of_bodyEnds {l : List Byte} (h : bodyEnds l = true) : l.length ≤ 31 := by
  match l with
  | [] => simp
  | [_] => simp
  | [_, _] => simp
  | _ :: _ :: n :: rest =>
    simp only [bodyEnds, Bool.and_eq_true, decide_eq_true_eq, List.length_cons] at h ⊢
    omega

theorem tail_append_singleton {l : List Byte} (h : l ≠ []) (b : Byte) :
    (l ++ [b]).tail = l.tail ++ [b] := by
  cases l with
  | nil => exact absurd rfl h
  | cons _ _ => rfl

theorem collect_of_room {b : Byte} (hlen : s.line.buffer.length < 32) :
    collect b s = if bodyEnds (s.line.buffer ++ [b]).tail = true
      then endOfFrame (setReceiver .body (s.line.buffer ++ [b]) s)
      else .next (setReceiver .body (s.line.buffer ++ [b]) s) := by
  rcases collect_cases s b with ⟨h, -⟩ | ⟨-, h, he⟩ | ⟨-, h, he⟩
  · omega
  · rw [he, if_pos h]
  · rw [he, if_neg (by simp [h])]

theorem buffer_of_headInProgress {h : Byte} (he : headInProgress s = some h) :
    s.line.receiver = .body ∧ s.line.buffer ≠ [] := by
  obtain ⟨hr, hb⟩ := headInProgress_eq_some he
  exact ⟨hr, by rw [hb]; simp⟩

/-- The last byte of a good frame goes into the buffer and is handed over as its row's operand. -/
theorem collect_of_good {b : Byte} {f : InFrame} (hnode : s.start.node ≠ .start)
    (h : goodFrame s [b] = some f) : collect b s = exec (frameRow s f [b]) s := by
  obtain ⟨head, he, hends, -⟩ := goodFrame_eq_some h
  obtain ⟨-, hne⟩ := buffer_of_headInProgress he
  rw [bodyWith, ← tail_append_singleton hne] at hends
  have hlen := length_of_bodyEnds hends
  simp only [List.length_tail, List.length_append, List.length_singleton] at hlen
  rw [collect_of_room (by omega), if_pos hends]
  exact endOfFrame_collected hnode h

/-- A byte of a good frame that more bytes follow waits in the buffer. -/
theorem collect_of_more {b : Byte} {more : List Byte} {f : InFrame} (hmore : more ≠ [])
    (h : goodFrame s (b :: more) = some f) :
    collect b s = .next (setReceiver .body (s.line.buffer ++ [b]) s) := by
  obtain ⟨head, he, hends, -⟩ := goodFrame_eq_some h
  obtain ⟨-, hne⟩ := buffer_of_headInProgress he
  have hsplit : bodyWith s (b :: more) = (s.line.buffer ++ [b]).tail ++ more := by
    rw [tail_append_singleton hne, bodyWith, List.append_assoc]
    rfl
  rw [hsplit] at hends
  have hlen := length_of_bodyEnds hends
  simp only [List.length_tail, List.length_append, List.length_singleton] at hlen
  rw [collect_of_room (by omega), if_neg fun h => ?_]
  rw [bodyEnds_append h hmore] at hends
  cases hends

/-- What a sound body character does (R110, R115; log entry 6). -/
theorem bodyCharactersFillTheBuffer (s : State) (c : LineChar) (hmark : c.mark = false)
    (hsound : charSound c = true) :
    (s.line.receiver = .hunt ∨ s.line.receiver = .discard →
        exec (.frameHead c) s = .next { s with line := { s.line with idleCount := 0 } })
      ∧ (s.line.receiver = .body → s.line.buffer.length < 32 →
        (∀ n, (s.line.buffer ++ [c.data])[3]? = some n → s.line.buffer.length ≠ n.toNat + 4) →
        exec (.frameHead c) s = .next { s with
          line := { s.line with buffer := s.line.buffer ++ [c.data], idleCount := 0 } })
      ∧ (s.line.receiver = .body → 32 ≤ s.line.buffer.length →
        exec (.frameHead c) s
          = .next { frameOver s with supervision := raised .overruns s.supervision })
      ∧ (∀ h n, s.line.receiver = .body → s.line.buffer.head? = some h →
        (s.line.buffer ++ [c.data])[3]? = some n → n.toNat ≤ 27 →
        s.line.buffer.length = n.toNat + 4 → testFrame h (s.line.buffer.tail ++ [c.data]) = none →
        exec (.frameHead c) s
          = .next { frameOver s with supervision := raised .checkErrors s.supervision })
      ∧ (∀ f, s.start.node ≠ .start → goodFrame s [c.data] = some f →
        exec (.frameHead c) s = exec (frameRow s f [c.data]) s)
      ∧ (∀ f t more, s.start.node ≠ .start → more ≠ [] → goodFrame s (c.data :: more) = some f →
        exec (.frameHead c) s = .next t →
        exec (frameRow s f more) t = exec (frameRow s f (c.data :: more)) s) := by
  refine ⟨fun hr => ?_, fun hbody hlen hnot => ?_, fun hbody hlen => ?_,
    fun h n hbody hhead hplace hn hlen htest => ?_, fun f hnode hgood => ?_,
    fun f t more hnode hmore hgood hexec => ?_⟩
  · rw [exec_frameHead_body hmark hsound, bodyCharacter]
    rcases hr with hr | hr <;> rw [hr] <;> simp only [setReceiver, State.mapLine, ← hr]
  · rw [exec_frameHead_collect hmark hsound hbody, collect_of_room hlen, if_neg fun hends => ?_]
    · rw [setReceiver, State.mapLine, ← hbody]
    · obtain ⟨n, hplace, -, heq⟩ := bodyEnds_tail_iff.mp hends
      exact hnot n hplace heq
  · rw [exec_frameHead_collect hmark hsound hbody, collect, if_pos (by exact hlen), bump_endFrame]
  · have hne : s.line.buffer ≠ [] := by
      rintro hnil
      simp [hnil] at hhead
    have hends := bodyEnds_tail_iff.mpr ⟨n, hplace, hn, hlen⟩
    have he : headInProgress s = some h := by
      rw [List.head?_eq_some_iff] at hhead
      obtain ⟨rest, hbuf⟩ := hhead
      simp [headInProgress, hbody, hbuf]
    have hgood : goodFrame s [c.data] = none := by
      rw [goodFrame, he, bodyWith]
      simp only [htest, ite_self]
    rw [exec_frameHead_collect hmark hsound hbody, collect_of_room (by omega), if_pos hends,
      endOfFrame_collected_bad he hends hgood, bump_endFrame]
  · obtain ⟨head, he, -⟩ := goodFrame_eq_some hgood
    rw [exec_frameHead_collect hmark hsound (buffer_of_headInProgress he).1]
    exact collect_of_good hnode hgood
  · obtain ⟨head, he, -⟩ := goodFrame_eq_some hgood
    rw [exec_frameHead_collect hmark hsound (buffer_of_headInProgress he).1,
      collect_of_more hmore hgood] at hexec
    cases hexec
    exact exec_frameRow_congr (s := s) (t := setReceiver .body (s.line.buffer ++ [c.data]) s) rfl rfl
      hnode hgood ((goodFrame_collected he c.data more).trans hgood)

/-! ## The five tests (R111) -/

/-- A frame is good where each of the five tests holds, and gives what its bytes say. -/
theorem testFrame_eq_some_iff (h src kind n check : Byte) (payload : List Byte) (f : InFrame)
    (hlen : payload.length = n.toNat) :
    testFrame h (src :: kind :: n :: payload ++ [check]) = some f ↔
      byteXor (h :: src :: kind :: n :: payload) = check
        ∧ 1 ≤ src.toNat ∧ src.toNat ≤ 30 ∧ n.toNat ≤ 24
        ∧ kindOfCode kind.toNat = some f.kind ∧ n.toNat ∈ kindLengths f.kind
        ∧ f.dest = h.toNat % 32 ∧ f.source = src.toNat ∧ f.payload = payload := by
  have htake : (payload ++ [check]).take n.toNat = payload := by simp [← hlen]
  have hget : (payload ++ [check]).getD n.toNat 0#8 = check := by simp [← hlen]
  simp only [List.cons_append, testFrame, htake, hget, validStation]
  by_cases hxor : byteXor (h :: src :: kind :: n :: payload) = check
  swap
  · simp [hxor]
  by_cases hsrc : 1 ≤ src.toNat ∧ src.toNat ≤ 30
  swap
  · simp only [hxor, hsrc]
    simp only [ne_eq, not_true_eq_false, if_false, decide_false, if_true, reduceCtorEq, true_and,
      false_iff, not_and]
    exact fun h1 h2 => absurd ⟨h1, h2⟩ hsrc
  by_cases hn : n.toNat ≤ 24
  swap
  · simp [hxor, hsrc, hn, Nat.not_le.mp hn]
  cases hkind : kindOfCode kind.toNat with
  | none => simp [hxor, hsrc, hn]
  | some k =>
    by_cases hk : n.toNat ∈ kindLengths k
    · simp only [hxor, hsrc, hn, hk, ne_eq, not_true_eq_false, if_false, and_self, decide_true,
        Bool.true_eq_false, Nat.not_lt.mpr hn, if_true, Option.some.injEq, true_and]
      constructor
      · rintro rfl
        exact ⟨rfl, hk, rfl, rfl, rfl⟩
      · rintro ⟨rfl, -, hd, hs, hp⟩
        cases f
        simp_all
    · simp only [hxor, hsrc, hn, hk, ne_eq, not_true_eq_false, if_false, and_self, decide_true,
        Bool.true_eq_false, Nat.not_lt.mpr hn, Option.some.injEq, true_and, reduceCtorEq,
        false_iff, not_and]
      rintro rfl hin
      exact absurd hin hk

/-- Settles O56: heads, body characters and the tests. -/
theorem headsBeginFramesAndTestsEndThem : Obligations.HeadsBeginFramesAndTestsEndThem :=
  ⟨headsBeginFrames, bodyCharactersFillTheBuffer, testFrame_eq_some_iff⟩

end

end Sys2Proof.Machine

/-! # Codes, the crowd view, and the commands of the supervisory station (Chapters 8 and 9) -/

namespace Sys2Proof.Machine

section
variable {s t : State}

theorem inRun_of_run (h : s.start.node = .run) : inRun s = true := decide_eq_true h

/-! ## Codes (R156, R157) -/

theorem exec_codeReceived {body : List Byte} {f : InFrame} (hrun : s.start.node = .run)
    (hf : handedFrame s .code body = some f) :
    exec (.codeReceived body) s = .next (takeCode f (frameOver s)) := by
  show execCodeReceived body s = _
  rw [execCodeReceived, hf]
  simp only [inRun_of_run hrun, if_true]
  rfl

/-- A CODE frame that is counted and thrown away. -/
theorem bump_frameOver (c : Counter) (s : State) :
    bump c (frameOver s) = { frameOver s with supervision := raised c s.supervision } :=
  bump_endFrame c s

theorem frameOver_start (s : State) : (frameOver s).start = s.start := rfl

theorem validCabin_iff {n : Nat} : validCabin n = true ↔ 1000 ≤ n ∧ n ≤ 19999 := by
  simp [validCabin]

/-- Settles O47: the cases of R156 in their order. -/
theorem codesAreTakenByCase : Obligations.CodesAreTakenByCase := by
  rintro s body f cabin letter u hrun hf rfl rfl rfl
  rw [exec_codeReceived hrun hf]
  simp only [takeCode, image_def, frameOver_start, Config.broadcast, bump_frameOver]
  refine ⟨fun h => ?_, fun hdest hsource => ?_⟩
  · rcases h with h | h
    · rw [if_pos h]
    · rw [if_pos h, ite_self]
  rw [if_neg hdest, if_neg (not_not.mpr hsource)]
  refine ⟨fun hind => ?_, fun hind => ?_⟩
  · rw [if_pos hind]
    rfl
  rw [if_neg (by simp [hind])]
  refine ⟨fun hbad => ?_, fun hlow hhigh hletter => ?_⟩
  · rw [if_pos]
    rcases hbad with h | h | h
    · exact .inl (Bool.eq_false_iff.mpr fun hv => by have := validCabin_iff.mp hv; omega)
    · exact .inl (Bool.eq_false_iff.mpr fun hv => by have := validCabin_iff.mp hv; omega)
    · exact .inr h
  have hvalid := validCabin_iff.mpr ⟨hlow, hhigh⟩
  rw [if_neg (by rw [hvalid]; simp only [Bool.true_eq_false, false_or]; omega)]
  refine ⟨fun hfull => ?_, fun hroom => ?_⟩
  · rw [if_pos (by exact hfull)]
    rfl
  · rw [if_neg (by exact Nat.not_le.mpr hroom)]
    rfl

/-! ## The crowd view (R160 to R162) -/

theorem watched_iff {n : Nat} : watched s n = true ↔ ∃ e ∈ s.induction.crowdView, e.station = n := by
  simp [watched]

/-- A frame of the crowd view ends and is heard. -/
theorem exec_crowd_hearFrom {c : Instr} {k : FrameKind} {body : List Byte} {f : InFrame} {value : Nat}
    {sound : Bool} (hrun : s.start.node = .run) (hf : handedFrame s k body = some f)
    (hc : c = .crowdReceived body ∧ k = .crowd ∧ value = payloadByte f.payload 0
        ∧ sound = decide (value ≤ 1 ∧ payloadByte f.payload 1 ≤ 48)
      ∨ c = .statusReceived body ∧ k = .status ∧ value = payloadByte f.payload 7
        ∧ sound = decide (value ≤ 1)) :
    ∃ ok, exec c s = .next (hearFrom f value ok (frameOver s))
      ∧ (sound = true ↔ ok = true ∧ value ≤ 1) := by
  have hin := inRun_of_run hrun
  rcases hc with ⟨rfl, rfl, rfl, rfl⟩ | ⟨rfl, rfl, rfl, rfl⟩
  · refine ⟨decide (payloadByte f.payload 1 ≤ 48), ?_, by simp [and_comm]⟩
    show execCrowdReceived body s = _
    rw [execCrowdReceived, hf]
    simp only [hin, if_true]
    rfl
  · refine ⟨true, ?_, by simp⟩
    show execStatusReceived body s = _
    rw [execStatusReceived, hf]
    simp only [hin, if_true]
    rfl

theorem crowdFramesAreHeard (s : State) (c : Instr) (k : FrameKind) (body : List Byte) (f : InFrame)
    (value : Nat) (sound : Bool) (hrun : s.start.node = .run) (hf : handedFrame s k body = some f)
    (hc : c = .crowdReceived body ∧ k = .crowd ∧ value = payloadByte f.payload 0
        ∧ sound = decide (value ≤ 1 ∧ payloadByte f.payload 1 ≤ 48)
      ∨ c = .statusReceived body ∧ k = .status ∧ value = payloadByte f.payload 7
        ∧ sound = decide (value ≤ 1)) :
    ((∃ e ∈ s.induction.crowdView, e.station = f.source) →
        (sound = true → ∃ t, exec c s = .next t
          ∧ t = { frameOver s with induction := t.induction }
          ∧ t.induction.crowdView = s.induction.crowdView.map (fun e =>
              if e.station = f.source then ⟨e.station, decide (value = 1), false, 0⟩ else e)
          ∧ t.induction.codes = s.induction.codes ∧ t.induction.permit = permitConditions t)
        ∧ (sound = false → exec c s
            = .next { frameOver s with supervision := raised .checkErrors s.supervision }))
      ∧ ((∀ e ∈ s.induction.crowdView, e.station ≠ f.source) → exec c s = .next (frameOver s)) := by
  obtain ⟨ok, hexec, hsound⟩ := exec_crowd_hearFrom hrun hf hc
  rw [hexec, hearFrom]
  refine ⟨fun hwatched => ?_, fun hnot => ?_⟩
  · rw [if_pos (watched_iff.mpr (by exact hwatched))]
    refine ⟨fun h => ?_, fun h => ?_⟩
    · rw [if_pos (hsound.mp h)]
      exact ⟨_, rfl, rfl, rfl, rfl, rfl⟩
    · rw [if_neg fun hok => by simp [hsound.mpr hok] at h, bump_frameOver]
  · rw [if_neg]
    rw [watched_iff]
    rintro ⟨e, he, h⟩
    exact hnot e he h

theorem canFallSilent_iff {e : CrowdEntry} (h : e.station ≠ s.start.station) :
    canFallSilent s e = true ↔ e.silent = false ∧ s.start.image.silenceTimeout * 1000 ≤ e.age := by
  have hage : silenceMs s = s.start.image.silenceTimeout * 1000 := rfl
  rw [canFallSilent, hage]
  simp [h]

/-- The ages that reach the silence timeout. -/
theorem silentStations (s : State) (n : Nat) (hrun : s.start.node = .run) (hn : n ≠ s.start.station) :
    ((∃ e ∈ s.induction.crowdView, e.station = n ∧ e.silent = false
        ∧ s.start.image.silenceTimeout * 1000 ≤ e.age) →
      ∃ t, exec (.silenceTimeout n) s = .next t
        ∧ t = { s with induction := t.induction }
        ∧ t.induction.crowdView = s.induction.crowdView.map (fun e =>
            if e.station = n ∧ e.silent = false ∧ s.start.image.silenceTimeout * 1000 ≤ e.age
            then ⟨e.station, false, true, s.start.image.silenceTimeout * 1000⟩ else e)
        ∧ t.induction.codes = s.induction.codes ∧ t.induction.permit = permitConditions t
        ∧ silentWatch t = true)
      ∧ ((∀ e ∈ s.induction.crowdView, e.station = n → e.silent = false →
          e.age < s.start.image.silenceTimeout * 1000) →
        exec (.silenceTimeout n) s = .next s) := by
  have hfalls : ∀ e : CrowdEntry, (e.station = n ∧ canFallSilent s e = true) ↔
      e.station = n ∧ e.silent = false ∧ s.start.image.silenceTimeout * 1000 ≤ e.age := fun e =>
    and_congr_right fun he => canFallSilent_iff (he ▸ hn)
  have hany : (s.induction.crowdView.any fun e => decide (e.station = n) && canFallSilent s e) = true ↔
      ∃ e ∈ s.induction.crowdView, e.station = n ∧ e.silent = false
        ∧ s.start.image.silenceTimeout * 1000 ≤ e.age := by
    simp only [List.any_eq_true, Bool.and_eq_true, decide_eq_true_eq, hfalls]
  have hexec : exec (.silenceTimeout n) s = execSilenceTimeout n s := rfl
  rw [hexec, execSilenceTimeout]
  refine ⟨fun hdue => ?_, fun hnone => ?_⟩
  · rw [if_pos ⟨inRun_of_run hrun, hany.mpr hdue⟩]
    refine ⟨_, rfl, rfl, ?_, rfl, rfl, ?_⟩
    · simp only [decidePermit, mapInduction_induction, hfalls]
      rfl
    · obtain ⟨e, he, hst, hsil, hage⟩ := hdue
      simp only [silentWatch, decidePermit, mapInduction_induction, List.any_map, List.any_eq_true]
      refine ⟨e, he, ?_⟩
      simp only [Function.comp_apply, if_pos ((hfalls e).mpr ⟨hst, hsil, hage⟩)]
      rfl
  · rw [if_neg]
    rintro ⟨-, h⟩
    obtain ⟨e, he, hst, hsil, hage⟩ := hany.mp h
    exact absurd (hnone e he hst hsil) (Nat.not_lt.mpr hage)

/-- Settles O48. -/
theorem crowdViewFollowsStations : Obligations.CrowdViewFollowsStations :=
  ⟨crowdFramesAreHeard, silentStations⟩

/-! ## Commands (R169 to R172) -/

theorem takeCommand_of_foreign {f : InFrame} (malformed : Bool) (act : State → State)
    (h : f.dest = 31 ∨ f.source ≠ s.start.image.supervisory) :
    takeCommand f malformed act s = bump .foreignFrames s := by
  unfold takeCommand
  by_cases hdest : f.dest = Config.broadcast
  · rw [if_pos hdest]
  · rw [if_neg hdest, if_pos (by exact h.resolve_left hdest)]

theorem takeCommand_of_malformed {f : InFrame} (act : State → State) (hdest : f.dest ≠ 31)
    (hsource : f.source = s.start.image.supervisory) :
    takeCommand f true act s = bump .checkErrors s := by
  have hbroadcast : f.dest ≠ Config.broadcast := hdest
  simp [takeCommand, hbroadcast, hsource]

theorem exec_askStatus_taken {body : List Byte} {f : InFrame} (hrun : s.start.node = .run)
    (hf : handedFrame s .ask body = some f) (hpage : payloadByte f.payload 0 = 0) :
    exec (.askStatus body) s
      = .next (takeCommand f false (answerStatus f.source) (frameOver s)) := by
  show execAskStatus body s = _
  rw [execAskStatus, hf]
  simp only [inRun_of_run hrun, hpage, and_self, if_true]
  rfl

theorem exec_askCounts_taken {body : List Byte} {f : InFrame} (hrun : s.start.node = .run)
    (hf : handedFrame s .ask body = some f) (hpage : payloadByte f.payload 0 ≠ 0) :
    exec (.askCounts body) s
      = .next (takeCommand f (decide (4 < payloadByte f.payload 0))
          (answerCounts f.source (payloadByte f.payload 0)) (frameOver s)) := by
  show execAskCounts body s = _
  rw [execAskCounts, hf]
  simp only [inRun_of_run hrun, hpage, ne_eq, not_false_eq_true, and_self, if_true]
  rfl

theorem takeHold_taken {op : Nat} {body : List Byte} {f : InFrame} (hrun : s.start.node = .run)
    (hf : handedFrame s .hold body = some f)
    (hop : payloadByte f.payload 0 = op ∨ 3 < payloadByte f.payload 0) :
    takeHold op body s = takeCommand f
      (holdMalformed (payloadByte f.payload 0) (f.payload.getD 1 0#8))
      (carryHold f.source (payloadByte f.payload 0) (f.payload.getD 1 0#8)) (frameOver s) := by
  rw [takeHold, hf]
  simp only [if_pos hop, inRun_of_run hrun, if_true]
  rfl

theorem exec_zero_taken {body : List Byte} {f : InFrame} (hrun : s.start.node = .run)
    (hf : handedFrame s .zero body = some f) :
    exec (.zero body) s = .next (takeCommand f false
      (fun u => arbitrate (queueAnswer (zeroAnswer f.source .take []) (zeroCounters u)))
      (frameOver s)) := by
  show execZero body s = _
  rw [execZero, hf]
  simp only [inRun_of_run hrun, if_true]
  rfl

theorem holdMalformed_iff (op : Nat) (mask : Byte) :
    holdMalformed op mask = true ↔ 3 < op ∨ op ≠ 0 ∧ 16 ≤ mask.toNat := by
  simp only [holdMalformed, Bool.or_eq_true, Bool.and_eq_true, decide_eq_true_eq]
  omega

/-- A command's row, as far as the command is judged (R169). -/
theorem exec_command {c : Instr} {k : FrameKind} {body : List Byte} {f : InFrame} {first : Nat}
    {second : Byte} (hrun : s.start.node = .run) (hf : handedFrame s k body = some f)
    (hfirst : first = payloadByte f.payload 0) (hsecond : second = f.payload.getD 1 0)
    (hc : c = .askStatus body ∧ k = .ask ∧ first = 0 ∨ c = .askCounts body ∧ k = .ask ∧ first ≠ 0
      ∨ c = .holdRead body ∧ k = .hold ∧ first = 0 ∨ c = .holdSet body ∧ k = .hold ∧ first = 1
      ∨ c = .holdClear body ∧ k = .hold ∧ first = 2
      ∨ c = .holdToggle body ∧ k = .hold ∧ 3 ≤ first ∨ c = .zero body ∧ k = .zero) :
    ∃ malformed act, exec c s = .next (takeCommand f malformed act (frameOver s))
      ∧ ((k = .ask ∧ 4 < first ∨ k = .hold ∧ (3 < first ∨ first ≠ 0 ∧ 16 ≤ second.toNat)) →
        malformed = true) := by
  subst hfirst hsecond
  have hhold : ∀ op, k = .hold → (payloadByte f.payload 0 = op ∨ 3 < payloadByte f.payload 0) →
      takeHold op body s = takeCommand f
        (holdMalformed (payloadByte f.payload 0) (f.payload.getD 1 0#8))
        (carryHold f.source (payloadByte f.payload 0) (f.payload.getD 1 0#8)) (frameOver s) := by
    rintro op rfl
    exact takeHold_taken hrun hf
  have hmal : (k = .ask ∧ 4 < payloadByte f.payload 0
      ∨ k = .hold ∧ (3 < payloadByte f.payload 0
        ∨ payloadByte f.payload 0 ≠ 0 ∧ 16 ≤ (f.payload.getD 1 0#8).toNat)) → k = .hold →
      holdMalformed (payloadByte f.payload 0) (f.payload.getD 1 0#8) = true := by
    rintro (⟨hk, -⟩ | ⟨-, h⟩) hk'
    · simp [hk] at hk'
    · exact (holdMalformed_iff _ _).mpr h
  rcases hc with ⟨rfl, rfl, h0⟩ | ⟨rfl, rfl, h0⟩ | ⟨rfl, hk, h0⟩ | ⟨rfl, hk, h0⟩ | ⟨rfl, hk, h0⟩
    | ⟨rfl, hk, h0⟩ | ⟨rfl, rfl⟩
  · refine ⟨_, _, exec_askStatus_taken hrun hf h0, fun h => ?_⟩
    rcases h with ⟨-, h⟩ | ⟨h, -⟩
    · omega
    · cases h
  · refine ⟨_, _, exec_askCounts_taken hrun hf h0, fun h => ?_⟩
    rcases h with ⟨-, h⟩ | ⟨h, -⟩
    · exact decide_eq_true h
    · cases h
  · exact ⟨_, _, congrArg Host.Outcome.next (hhold 0 hk (.inl h0)), fun h => hmal h hk⟩
  · exact ⟨_, _, congrArg Host.Outcome.next (hhold 1 hk (.inl h0)), fun h => hmal h hk⟩
  · exact ⟨_, _, congrArg Host.Outcome.next (hhold 2 hk (.inl h0)), fun h => hmal h hk⟩
  · exact ⟨_, _, congrArg Host.Outcome.next (hhold 3 hk (by omega)), fun h => hmal h hk⟩
  · refine ⟨_, _, exec_zero_taken hrun hf, fun h => ?_⟩
    rcases h with ⟨h, -⟩ | ⟨h, -⟩ <;> cases h

/-- Settles O54. -/
theorem commandsAreRefused : Obligations.CommandsAreRefused := by
  intro s c k body f first second hrun hf hfirst hsecond hc
  obtain ⟨malformed, act, hexec, hmal⟩ := exec_command hrun hf hfirst hsecond hc
  rw [hexec]
  refine ⟨fun hforeign => ?_, fun hdest hsource hbad => ?_⟩
  · rw [takeCommand_of_foreign (s := frameOver s) _ _ hforeign, bump_frameOver]
  · rw [hmal hbad, takeCommand_of_malformed (s := frameOver s) _ hdest hsource, bump_frameOver]

/-! ### HOLD (R171) -/

theorem combine_get (f : Bool → Bool → Bool) (a b : Quad Bool) (k : OutletNo) :
    (combine f a b).get k = f (a.get k) (b.get k) := by
  match k with
  | 0 => rfl
  | 1 => rfl
  | 2 => rfl
  | 3 => rfl

theorem maskBits_get (mask : Byte) (k : OutletNo) : (maskBits mask).get k = mask.getLsbD k := by
  match k with
  | 0 => rfl
  | 1 => rfl
  | 2 => rfl
  | 3 => rfl

theorem setLineHolds_get (q : Quad Bool) (s : State) (k : OutletNo) :
    (setLineHolds q s).outlets.get k = { s.outlets.get k with lineHold := q.get k } := by
  match k with
  | 0 => rfl
  | 1 => rfl
  | 2 => rfl
  | 3 => rfl

theorem lineHolds_get (s : State) (k : OutletNo) : (lineHolds s).get k = (s.outlets.get k).lineHold :=
  Quad_get_map _ _ _

/-- A HOLD that is carried out answers the line hold bits before and after. -/
theorem carryHold_eq (dest op : Nat) (mask : Byte) (s : State) :
    carryHold dest op mask s = arbitrate (queueAnswer
      ⟨dest, .holdAnswer, [maskByte (s.outlets.map (·.lineHold)),
        maskByte ((setLineHolds (holdBits op (maskBits mask) (lineHolds s)) s).outlets.map
          (·.lineHold))]⟩
      { s with outlets := (setLineHolds (holdBits op (maskBits mask) (lineHolds s)) s).outlets }) := rfl

/-- Settles O52: the bits of each operation, outlet by outlet. -/
theorem holdChangesLineBits : Obligations.HoldChangesLineBits := by
  intro s c body f op mask after hrun hf hdest hsource hop hmask hsmall hc
  have hmal : holdMalformed op mask = false := Bool.eq_false_iff.mpr fun h => by
    rcases (holdMalformed_iff _ _).mp h with h | ⟨h0, h⟩ <;> omega
  have hexec : exec c s = .next (takeHold op body s) := by
    rcases hc with ⟨rfl, rfl, -⟩ | ⟨rfl, rfl, -⟩ | ⟨rfl, rfl, -⟩ | ⟨rfl, rfl, -⟩ <;> rfl
  rw [hexec, takeHold_taken hrun hf (.inl hop.symm), ← hop]
  have hmask' : f.payload.getD 1 0#8 = mask := hmask.symm
  rw [hmask', hmal, takeCommand_of_supervisory _ hdest (by exact hsource), carryHold_eq]
  refine ⟨_, rfl, fun k => ?_⟩
  rw [setLineHolds_get]
  have hbit : (holdBits op (maskBits mask) (lineHolds (frameOver s))).get k = after k := by
    rcases hc with ⟨-, rfl, h⟩ | ⟨-, rfl, h⟩ | ⟨-, rfl, h⟩ | ⟨-, rfl, h⟩
    · rw [h k]
      exact lineHolds_get _ k
    · rw [h k, holdBits, combine_get, maskBits_get, lineHolds_get]
      rfl
    · rw [h k, holdBits, combine_get, maskBits_get, lineHolds_get]
      rfl
    · rw [h k, holdBits, combine_get, maskBits_get, lineHolds_get]
      rfl
  rw [hbit]
  rfl

/-! ### ASK (R167, R170) -/

theorem u16_length (n : Nat) : (u16 n).length = 2 := rfl

/-- The two bytes of a page's counter. -/
theorem countsPayload_counter (s : State) (page : Nat) (i : Nat) {c : Option Counter}
    (h : (pageCounters page)[i]? = some c) :
    ((countsPayload s page).drop (1 + 2 * i)).take 2 = u16 ((c.map s.counter).getD 0) := by
  have hpages : ∀ (l : List (Option Counter)) (i : Nat), l[i]? = some c →
      ((l.flatMap fun c => u16 ((c.map s.counter).getD 0)).drop (2 * i)).take 2
        = u16 ((c.map s.counter).getD 0) := by
    intro l
    induction l with
    | nil => simp
    | cons a l ih =>
      intro i hi
      cases i with
      | zero =>
        simp only [List.getElem?_cons_zero, Option.some.injEq] at hi
        subst hi
        simp [u16]
      | succ i =>
        exact ih i (by simpa using hi)
  rw [countsPayload, Nat.add_comm 1, List.drop_succ_cons]
  exact hpages _ i h

/-- A page's counters stand in their order, and its free places are zero (R167). -/
theorem countersOnTheirPages (s : State) (counters : List (List Counter))
    (hcounters : counters = [[.delivered 0, .delivered 1, .delivered 2, .delivered 3,
        .straysDelivered, .refusals, .missing, .abandoned],
      [.spurnedOffers, .noAnswers, .pendingDiscards, .anonymous, .untracked, .unboundReads, .duplicates,
        .droppedExceptions],
      [.parityErrors, .framingErrors, .overruns, .truncated, .checkErrors, .collisions, .lineAborts,
        .droppedNotices],
      [.unexpectedEntries, .foreignFrames]])
    (page : Nat) (l : List Counter) (hl : counters[page - 1]? = some l) (hpage : 1 ≤ page) :
    (countsPayload s page).length = 17 ∧ (countsPayload s page).getD 0 0 = byteOf page
      ∧ (∀ i c, l[i]? = some c → ((countsPayload s page).drop (1 + 2 * i)).take 2
          = [byteOf (s.counter c / 256), byteOf (s.counter c)])
      ∧ ∀ i, l.length ≤ i → i < 8 → ((countsPayload s page).drop (1 + 2 * i)).take 2 = [0, 0] := by
  subst hcounters
  have hpageOf : pageCounters page = l.map some ++ List.replicate (8 - l.length) none ∧ l.length ≤ 8 := by
    match page, hpage with
    | 1, _ => cases hl; exact ⟨rfl, by decide⟩
    | 2, _ => cases hl; exact ⟨rfl, by decide⟩
    | 3, _ => cases hl; exact ⟨rfl, by decide⟩
    | 4, _ => cases hl; exact ⟨rfl, by decide⟩
    | n + 5, _ => simp at hl
  obtain ⟨hplaces, hlen⟩ := hpageOf
  refine ⟨?_, rfl, fun i c hi => ?_, fun i hge hlt => ?_⟩
  · have h8 : (pageCounters page).length = 8 := by
      simp [hplaces]
      omega
    rw [countsPayload, List.length_cons, List.length_flatMap]
    simp only [u16_length, List.map_const', List.sum_replicate, h8, smul_eq_mul]
  · have hi' : (pageCounters page)[i]? = some (some c) := by
      rw [hplaces, List.getElem?_append_left (by simpa using (List.getElem?_eq_some_iff.mp hi).1)]
      simp [hi]
    rw [countsPayload_counter s page i hi']
    rfl
  · have hi' : (pageCounters page)[i]? = some none := by
      rw [hplaces, List.getElem?_append_right (by simpa using hge), List.length_map,
        List.getElem?_replicate, if_pos (by omega)]
    rw [countsPayload_counter s page i hi']
    simp [u16, byteOf]

/-- Settles O51: the pages, and the answers that carry them. -/
theorem asksAreAnswered : Obligations.AsksAreAnswered := by
  refine ⟨countersOnTheirPages, fun s body f page hrun hf hpage hdest hsource => ⟨fun h0 => ?_,
    fun hlow hhigh => ?_⟩⟩
  · rw [exec_askStatus_taken hrun hf (hpage ▸ h0),
      takeCommand_of_supervisory (s := frameOver s) _ hdest hsource]
    rfl
  · rw [exec_askCounts_taken hrun hf (by omega), ← hpage, decide_eq_false (by omega),
      takeCommand_of_supervisory (s := frameOver s) _ hdest hsource]
    rfl

/-! ## What a node in FAULT answers (R183) -/

theorem takeInFault_taken {act : InFrame → State → State} {k : FrameKind} {body : List Byte}
    {f : InFrame} (hfault : s.start.node = .fault) (hf : handedFrame s k body = some f) :
    takeInFault k body act s
      = if f.dest = s.start.station then act f (frameOver s) else frameOver s := by
  have hin : inFault s = true := decide_eq_true hfault
  rw [takeInFault, hf]
  simp only [hin, if_true]
  rfl

theorem handedFrame_length {k : FrameKind} {body : List Byte} {f : InFrame}
    (hf : handedFrame s k body = some f) : f.payload.length ∈ kindLengths k := by
  obtain ⟨hgood, hk, -⟩ := handedFrame_eq_some hf
  obtain ⟨h, -, hends, htest⟩ := goodFrame_eq_some hgood
  match hb : bodyWith s body with
  | [] => simp [hb, testFrame] at htest
  | [_] => simp [hb, testFrame] at htest
  | [_, _] => simp [hb, testFrame] at htest
  | src :: kind :: n :: rest =>
    rw [hb] at hends htest
    simp only [bodyEnds, Bool.and_eq_true, decide_eq_true_eq] at hends
    have hrest : (rest.take n.toNat).length = n.toNat := by
      rw [List.length_take]
      omega
    have hlast : rest = rest.take n.toNat ++ [rest.getD n.toNat 0#8] := by
      rw [List.getD_eq_getElem _ _ (by omega), List.take_append_getElem, ← hends.2, List.take_length]
    rw [hlast, ← List.cons_append, ← List.cons_append, ← List.cons_append,
      testFrame_eq_some_iff _ _ _ _ _ _ _ hrest] at htest
    obtain ⟨-, -, -, -, -, hlen, -, -, hpayload⟩ := htest
    rw [hpayload, hrest, ← hk]
    exact hlen

theorem take_two_of_offer {l : List Byte} (h : l.length = 18) :
    l.take 2 = [l.getD 0 0, l.getD 1 0] := by
  match l with
  | a :: b :: rest => rfl

/-- Settles O55: the three kinds a node in FAULT answers. -/
theorem faultedNodeAnswers : Obligations.FaultedNodeAnswers := by
  intro s c k body f page hfault hf hpage hstation hc
  have hoffer : k = .offer → exec c s = .next (takeInFault k body
      (fun f => faultSpurn f (f.payload.take 2)) s) := by
    rcases hc with ⟨rfl, rfl⟩ | ⟨rfl, rfl⟩ | ⟨rfl, rfl⟩ <;> simp [exec, execFaultOffer]
  have hcode : k = .code → exec c s = .next (takeInFault k body
      (fun f => faultSpurn f [0#8, 0#8]) s) := by
    rcases hc with ⟨rfl, rfl⟩ | ⟨rfl, rfl⟩ | ⟨rfl, rfl⟩ <;> simp [exec, execFaultCode]
  have hask : k = .ask → exec c s = .next (takeInFault k body faultAskAnswer s) := by
    rcases hc with ⟨rfl, rfl⟩ | ⟨rfl, rfl⟩ | ⟨rfl, rfl⟩ <;> simp [exec, execFaultAsk]
  refine ⟨fun hdest => ⟨fun hk => ?_, fun hk => ?_, fun hk h0 => ?_, fun hk hlow hhigh => ?_,
    fun hk hbad => ?_⟩, fun hall => ?_⟩
  · have hlen : f.payload.length = 18 := by
      have h := handedFrame_length hf
      rw [hk] at h
      simpa [kindLengths] using h
    rw [hoffer hk, takeInFault_taken hfault hf, if_pos hdest, faultSpurn, take_two_of_offer hlen]
    rfl
  · rw [hcode hk, takeInFault_taken hfault hf, if_pos hdest]
    rfl
  · rw [hask hk, takeInFault_taken hfault hf, if_pos hdest, faultAskAnswer, ← hpage, if_pos h0]
    rfl
  · rw [hask hk, takeInFault_taken hfault hf, if_pos hdest, faultAskAnswer, ← hpage,
      if_neg (by omega), if_pos hhigh]
    rfl
  · rw [hask hk, takeInFault_taken hfault hf, if_pos hdest, faultAskAnswer, ← hpage,
      if_neg (by omega), if_neg (by omega), bump_frameOver]
  · have hother : f.dest ≠ s.start.station := by omega
    rcases hc with ⟨-, hk⟩ | ⟨-, hk⟩ | ⟨-, hk⟩
    · rw [hoffer hk, takeInFault_taken hfault hf, if_neg hother]
    · rw [hcode hk, takeInFault_taken hfault hf, if_neg hother]
    · rw [hask hk, takeInFault_taken hfault hf, if_neg hother]

end

end Sys2Proof.Machine

/-! # The STATUS frame, and the bytes of frames (sections 6.2, 7.2 and 9.2) -/

namespace Sys2Proof.Machine

section
variable {s t : State}

/-! ## The status timer (R164) -/

theorem exec_statusTimerExpiry {n : Nat} (hon : s.start.resetHeld = false)
    (htimer : s.supervision.statusTimer = some n) :
    exec .statusTimerExpiry s = .next (arbitrate { s with
      supervision := { s.supervision with
        statusTimer := some 0
        statusDue := if s.supervision.statusDue = .notDue then .due
          else s.supervision.statusDue } }) := by
  show execStatusTimerExpiry s = _
  rw [execStatusTimerExpiry, if_pos ⟨by simp [powered, hon], by simp [htimer]⟩]
  by_cases hdue : s.supervision.statusDue = .notDue
  · simp only [mapSupervision_supervision, hdue, if_true]
    rfl
  · simp only [mapSupervision_supervision, hdue, if_false]
    rfl

/-! ## Bytes made of bits -/

/-- A byte made of six bits gives them back. -/
theorem bits_of_flags : ∀ b0 b1 b2 b3 b4 b5 : Bool, ∀ f : Byte,
    f = byteOf (b0.toNat + 2 * b1.toNat + 4 * b2.toNat + 8 * b3.toNat + 16 * b4.toNat
      + 32 * b5.toNat) →
    f.getLsbD 0 = b0 ∧ f.getLsbD 1 = b1 ∧ f.getLsbD 2 = b2 ∧ f.getLsbD 3 = b3 ∧ f.getLsbD 4 = b4
      ∧ f.getLsbD 5 = b5 ∧ f.getLsbD 6 = false ∧ f.getLsbD 7 = false := by
  rintro b0 b1 b2 b3 b4 b5 _ rfl
  revert b0 b1 b2 b3 b4 b5
  decide

/-- A byte made of a role and four bits gives them back. -/
theorem bits_of_outlet : ∀ n < 3, ∀ b2 b3 b4 b5 : Bool, ∀ f : Byte,
    f = byteOf (n + 4 * b2.toNat + 8 * b3.toNat + 16 * b4.toNat + 32 * b5.toNat) →
    f % 4 = byteOf n ∧ f.getLsbD 2 = b2 ∧ f.getLsbD 3 = b3 ∧ f.getLsbD 4 = b4 ∧ f.getLsbD 5 = b5
      ∧ f.getLsbD 6 = false ∧ f.getLsbD 7 = false := by
  rintro n hn b2 b3 b4 b5 _ rfl
  revert b2 b3 b4 b5 n
  decide

/-! ## The STATUS payload (R165) -/

/-- The twelve bytes of the belt and the outlets, zero in FAULT. -/
def statusMiddle (s : State) : List Byte :=
  if s.start.node = .fault then List.replicate 12 0#8
  else
    [byteOf s.track.table.length, byteOf s.handoff.expected.length, byteOfBool s.supervision.crowded,
      outletByte s 0, outletByte s 1, outletByte s 2, outletByte s 3, byteOf (s.outlets.get 0).fill,
      byteOf (s.outlets.get 1).fill, byteOf (s.outlets.get 2).fill, byteOf (s.outlets.get 3).fill,
      byteOf (min 255 s.resolution.exceptions.length)]

theorem statusPayload_eq (s : State) :
    statusPayload s = [nodeByte s, byteOf (faultCode s.start.faultReason),
      byteOf (bandNumber s.position.band), byteOf (s.position.speed / 256), byteOf s.position.speed]
      ++ statusMiddle s ++ [flagsByte s] := rfl

theorem statusMiddle_length (s : State) : (statusMiddle s).length = 12 := by
  unfold statusMiddle
  split <;> rfl

theorem statusPayload_length (s : State) : (statusPayload s).length = 18 := by
  rw [statusPayload_eq]
  simp [statusMiddle_length]

theorem statusPayload_flags (s : State) : (statusPayload s).getD 17 0 = flagsByte s := by
  rw [statusPayload_eq, List.getD_append_right _ _ _ _ (by simp [statusMiddle_length])]
  simp [statusMiddle_length]

/-- The bytes of the belt and the outlets. -/
theorem statusPayload_middle (s : State) {i : Nat} (h : i < 12) :
    (statusPayload s).getD (5 + i) 0 = (statusMiddle s).getD i 0 := by
  rw [statusPayload_eq, List.append_assoc, List.getD_append_right _ _ _ _ (by simp),
    List.getD_append _ _ _ _ (by simpa [statusMiddle_length] using h)]
  simp

theorem nodeByte_eq (s : State) : nodeByte s = byteOf
    ((match s.start.node with
      | .run => if s.start.clearHeld then 2 else 1
      | .fault => 3
      | .start => 0)
    + (if s.position.stopped then 4 else 0) + (if s.induction.permit then 8 else 0)) := by
  unfold nodeByte
  cases s.start.node <;> cases s.position.stopped <;> cases s.induction.permit <;> rfl

theorem silentWatch_iff (s : State) :
    silentWatch s = true ↔ ∃ e ∈ s.induction.crowdView, e.silent = true := by
  simp [silentWatch]

/-- An outlet's byte in RUN, by its role. -/
theorem outletByte_places (s : State) (hrun : s.start.node = .run) (k : OutletNo) (f : Byte)
    (role : Role) (hf : f = outletByte s k) (hrole : role = (s.start.image.outlets.get k).role) :
    (role = .unused → f = 0)
      ∧ (role = .deck → f % 4 = 1) ∧ (role = .stray → f % 4 = 2)
      ∧ (role ≠ .unused →
        (f.getLsbD 2 = true ↔ (s.start.image.outlets.get k).capacity ≤ (s.outlets.get k).fill)
          ∧ f.getLsbD 3 = ((s.outlets.get k).holdSwitch || (s.outlets.get k).lineHold)
          ∧ f.getLsbD 4 = !(s.outlets.get k).cartPresent
          ∧ f.getLsbD 5 = (s.outlets.get k).faulted
          ∧ f.getLsbD 6 = false ∧ f.getLsbD 7 = false) := by
  have hcode : roleCode (s.start.image.outlets.get k).role < 3 := by
    cases (s.start.image.outlets.get k).role <;> simp [roleCode]
  obtain ⟨hmod, h2, h3, h4, h5, h6, h7⟩ := bits_of_outlet _ hcode (isFull s k) (isHeld s k)
    (isNoCart s k) (isFaulted s k) f hf
  rw [← hrole] at hmod
  have hfollowed : outletFollowed s k = decide (role ≠ .unused) := by
    simp [outletFollowed, hrun, hrole]
  refine ⟨fun hr => ?_, fun hr => ?_, fun hr => ?_, fun hr => ?_⟩
  · have hno : outletFollowed s k = false := by simp [hfollowed, hr]
    rw [hf, outletByte, ← hrole, hr]
    simp [isFull, isHeld, isNoCart, isFaulted, hno, roleCode, byteOf]
  · rw [hmod, hr]
    rfl
  · rw [hmod, hr]
    rfl
  · have hyes : outletFollowed s k = true := by simp [hfollowed, hr]
    rw [h2, h3, h4, h5]
    refine ⟨?_, ?_, ?_, ?_, h6, h7⟩
    · simp [isFull, hyes, hrun]
    · simp [isHeld, hyes]
    · simp [isNoCart, hyes]
    · simp [isFaulted, hyes]

/-- Settles O50: the timer, and the payload byte by byte. -/
theorem statusFallsDueAndCarriesNode : Obligations.StatusFallsDueAndCarriesNode := by
  refine ⟨fun s n hon htimer => exec_statusTimerExpiry hon htimer, fun s => ⟨statusPayload_length s,
    nodeByte_eq s, fun n reason hn hreason => ?_, fun n band hn hband => ?_, rfl, fun f hf => ?_,
    fun hn => ?_, fun hrun k f role hf hrole => ?_, fun hn i hlow hhigh => ?_⟩⟩
  · show byteOf (faultCode s.start.faultReason) = _
    rw [hreason]
    match n with
    | 0 => cases hn; rfl
    | 1 => cases hn; rfl
    | 2 => cases hn; rfl
    | 3 => cases hn; rfl
    | 4 => cases hn; rfl
    | 5 => cases hn; rfl
    | 6 => cases hn; rfl
    | 7 => cases hn; rfl
    | n + 8 => simp at hn
  · show byteOf (bandNumber s.position.band) = _
    rw [hband]
    match n with
    | 0 => cases hn; rfl
    | 1 => cases hn; rfl
    | 2 => cases hn; rfl
    | n + 3 => simp at hn
  · rw [statusPayload_flags] at hf
    rw [← silentWatch_iff]
    obtain ⟨h0, h1, h2, h3, h4, h5, h6, h7⟩ := bits_of_flags _ _ _ _ _ _ f hf
    exact ⟨h0, h1, h2, h3, by rw [h4], h5, h6, h7⟩
  · have hmiddle : ∀ i, i < 12 → (statusPayload s).getD (5 + i) 0 = _ := fun i =>
      statusPayload_middle s
    simp only [statusMiddle, if_neg hn] at hmiddle
    refine ⟨hmiddle 0 (by omega), hmiddle 1 (by omega), hmiddle 2 (by omega), fun k => ?_,
      hmiddle 11 (by omega)⟩
    match k with
    | 0 => exact hmiddle 7 (by omega)
    | 1 => exact hmiddle 8 (by omega)
    | 2 => exact hmiddle 9 (by omega)
    | 3 => exact hmiddle 10 (by omega)
  · refine outletByte_places s hrun k f role ?_ hrole
    have hmiddle : ∀ i, i < 12 → (statusPayload s).getD (5 + i) 0 = _ := fun i =>
      statusPayload_middle s
    have hn : s.start.node ≠ .fault := by simp [hrun]
    simp only [statusMiddle, if_neg hn] at hmiddle
    rw [hf]
    match k with
    | 0 => exact hmiddle 3 (by omega)
    | 1 => exact hmiddle 4 (by omega)
    | 2 => exact hmiddle 5 (by omega)
    | 3 => exact hmiddle 6 (by omega)
  · obtain ⟨j, rfl⟩ := Nat.exists_eq_add_of_le hlow
    rw [statusPayload_middle s (by omega), statusMiddle, if_pos hn]
    exact List.getD_replicate _ (by omega)

/-! ## The characters of a frame (R106, R108) -/

/-- A character that the transmitter sends has even parity and its stop bit. -/
theorem charSound_charOf (data : Byte) (mark : Bool) : charSound (charOf data mark) = true := by
  have heven : (onesIn data + mark.toNat
      + (decide ((onesIn data + mark.toNat) % 2 = 1)).toNat) % 2 = 0 := by
    by_cases h : (onesIn data + mark.toNat) % 2 = 1
    · rw [decide_eq_true h, Bool.toNat_true]
      omega
    · rw [decide_eq_false h, Bool.toNat_false]
      omega
  exact (Bool.true_and _).trans (decide_eq_true heven)

theorem frameBytes_eq (source : Nat) (f : OutFrame) : ∃ check,
    frameBytes source f = byteOf (f.dest % 32) :: (byteOf source :: byteOf (kindCode f.kind)
      :: byteOf f.payload.length :: f.payload ++ [check])
      ∧ check = byteXor (byteOf (f.dest % 32) :: byteOf source :: byteOf (kindCode f.kind)
        :: byteOf f.payload.length :: f.payload) := ⟨_, rfl, rfl⟩

theorem frameChars_eq (source : Nat) (f : OutFrame) : ∃ head rest,
    frameBytes source f = head :: rest ∧ rest.length = f.payload.length + 4
      ∧ frameChars source f = charOf head true :: rest.map (charOf · false) := by
  obtain ⟨check, h, -⟩ := frameBytes_eq source f
  exact ⟨_, _, h, by simp, by rw [frameChars, h]⟩

theorem framesAreSound (source : Nat) (f : OutFrame) :
    (frameChars source f).length = f.payload.length + 5
      ∧ (∀ c ∈ frameChars source f, charSound c = true)
      ∧ ((frameChars source f).map (·.mark)) = true :: List.replicate (f.payload.length + 4) false
      ∧ (frameChars source f).map (·.data) = frameBytes source f := by
  obtain ⟨head, rest, hbytes, hlen, hchars⟩ := frameChars_eq source f
  rw [hchars, hbytes]
  refine ⟨by simp [hlen], fun c hc => ?_, ?_, ?_⟩
  · simp only [List.mem_cons, List.mem_map] at hc
    rcases hc with rfl | ⟨b, -, rfl⟩
    · exact charSound_charOf _ _
    · exact charSound_charOf _ _
  · simp only [List.map_cons, List.map_map, ← hlen, List.cons.injEq]
    exact ⟨rfl, by simp [Function.comp_def, charOf]⟩
  · simp only [List.map_cons, List.map_map, List.cons.injEq]
    exact ⟨rfl, List.map_id rest⟩

theorem byteOf_toNat (n : Nat) : (byteOf n).toNat = n % 256 := BitVec.toNat_ofNat n 8

theorem byteOf_toNat_of_lt {n : Nat} (h : n < 256) : (byteOf n).toNat = n := by
  rw [byteOf_toNat, Nat.mod_eq_of_lt h]

theorem kindOfCode_kindCode (k : FrameKind) : kindOfCode (byteOf (kindCode k)).toNat = some k := by
  cases k <;> rfl

theorem kindLengths_le {k : FrameKind} {n : Nat} (h : n ∈ kindLengths k) : n ≤ 24 := by
  cases k <;> simp [kindLengths] at h <;> omega

theorem framesAreGood (source : Nat) (f : OutFrame) (head : Byte) (body : List Byte)
    (hsource : validStation source = true) (hdest : f.dest ≤ 31)
    (hlen : f.payload.length ∈ kindLengths f.kind) (hbytes : frameBytes source f = head :: body) :
    bodyEnds body = true ∧ testFrame head body
      = some { dest := f.dest, source := source, kind := f.kind, payload := f.payload } := by
  obtain ⟨check, h, hcheck⟩ := frameBytes_eq source f
  rw [h] at hbytes
  cases hbytes
  have h24 := kindLengths_le hlen
  have hn := byteOf_toNat_of_lt (n := f.payload.length) (by omega)
  simp only [validStation, decide_eq_true_eq] at hsource
  have hsrc := byteOf_toNat_of_lt (n := source) (by omega)
  have hd := byteOf_toNat_of_lt (n := f.dest % 32) (by omega)
  refine ⟨?_, (testFrame_eq_some_iff _ _ _ _ _ _ _ hn.symm).mpr ⟨hcheck.symm, ?_, ?_, ?_, ?_, ?_, ?_,
    hsrc.symm, rfl⟩⟩
  · simp only [List.cons_append, bodyEnds, hn, List.length_append, List.length_singleton]
    simp
    omega
  · omega
  · omega
  · omega
  · exact kindOfCode_kindCode _
  · rwa [hn]
  · rw [hd]
    show f.dest = _
    omega

/-- Settles O13. -/
theorem framesGoOutSoundAndGood : Obligations.FramesGoOutSoundAndGood :=
  ⟨framesAreSound, framesAreGood⟩

/-! ## The places of a record in an OFFER and a STRAY notice (sections 7.2 and 5.4) -/

theorem u16_value (n : Nat) :
    (byteOf (n / 256)).toNat * 256 + (byteOf n).toNat = n % 65536 := by
  rw [byteOf_toNat, byteOf_toNat]
  omega

theorem tagByte_eq (g : Option Tag) :
    tagByte g = byteOf (g.elim 0 fun g => g.letter + if g.source = .read then 8 else 16) := by
  cases g with
  | none => rfl
  | some g => cases hs : g.source <;> simp [tagByte, tagStatusCode, hs]

/-- The first five bytes. -/
theorem tagPlaces_of_prefix (r : Record) (rest : List Byte) :
    TagPlaces r (refBytes r.ref ++ cabinBytes r.tag ++ tagByte r.tag :: rest) := by
  have hcabin : (r.tag.map (·.cabin)).getD 0 = r.tag.elim 0 (·.cabin) := by cases r.tag <;> rfl
  refine ⟨u16_value _, ?_, tagByte_eq _⟩
  rw [← hcabin]
  exact u16_value _

theorem causeCode_of_place {n : Nat} {c : StrayCause} (h : strayCauses[n]? = some c) :
    causeCode (some c) = n + 1 := by
  match n with
  | 0 => cases h; rfl
  | 1 => cases h; rfl
  | 2 => cases h; rfl
  | 3 => cases h; rfl
  | 4 => cases h; rfl
  | 5 => cases h; rfl
  | 6 => cases h; rfl
  | 7 => cases h; rfl
  | n + 8 => simp [strayCauses] at h

theorem refusalCode_of_place {n : Nat} {c : RefusalCause}
    (h : [RefusalCause.full, .held, .noCart, .faulted, .busy, .gap, .oversize, .pushMiss][n]?
      = some c) : refusalCode c = n + 1 := by
  match n with
  | 0 => cases h; rfl
  | 1 => cases h; rfl
  | 2 => cases h; rfl
  | 3 => cases h; rfl
  | 4 => cases h; rfl
  | 5 => cases h; rfl
  | 6 => cases h; rfl
  | 7 => cases h; rfl
  | n + 8 => simp at h

/-- The two bytes of a refusal in its place. -/
theorem refusals_getD {l : List RefusalEntry} {i : Nat} {e : RefusalEntry} (h : l[i]? = some e)
    (z : List Byte) :
    (l.flatMap refusalBytes ++ z).getD (2 * i) 0 = byteOf e.station
      ∧ (l.flatMap refusalBytes ++ z).getD (2 * i + 1) 0 = byteOf (refusalCode e.cause) := by
  induction l generalizing i with
  | nil => simp at h
  | cons a l ih =>
    cases i with
    | zero =>
      simp only [List.getElem?_cons_zero, Option.some.injEq] at h
      subst h
      exact ⟨rfl, rfl⟩
    | succ i => exact ih (by simpa using h)

theorem refusals_flatMap_length (l : List RefusalEntry) :
    (l.flatMap refusalBytes).length = 2 * l.length := by
  induction l with
  | nil => rfl
  | cons a l ih =>
    rw [List.flatMap_cons, List.length_append, ih, List.length_cons]
    simp [refusalBytes]
    omega

theorem refusals_getD_beyond {l : List RefusalEntry} {j : Nat} (h : 2 * l.length ≤ j) :
    (l.flatMap refusalBytes ++ List.replicate 8 0#8).getD j 0 = 0 := by
  rw [List.getD_append_right _ _ _ _ (by rwa [refusals_flatMap_length])]
  rw [List.getD_eq_getElem?_getD]
  show (List.replicate 8 0#8)[_]?.getD 0#8 = 0#8
  exact List.getElem?_getD_replicate_default_eq _ _ _

theorem take_getD {l : List Byte} {n j : Nat} (h : j < n) : (l.take n).getD j 0 = l.getD j 0 := by
  rw [List.getD_eq_getElem?_getD, List.getD_eq_getElem?_getD, List.getElem?_take_of_lt h]

theorem refusalsBytes_length (l : List RefusalEntry) : (refusalsBytes l).length = 8 := by
  simp [refusalsBytes]

/-- A refusal list behind `k` bytes and its number. -/
theorem refusalPlaces_of_prefix {k : Nat} {pre : List Byte} (l : List RefusalEntry)
    (hk : pre.length = k) :
    RefusalPlaces k l (pre ++ byteOf l.length :: refusalsBytes l) := by
  subst hk
  have hplace : ∀ j, j < 8 → (pre ++ byteOf l.length :: refusalsBytes l).getD (pre.length + 1 + j) 0
      = (l.flatMap refusalBytes ++ List.replicate 8 0#8).getD j 0 := by
    intro j hj
    rw [List.getD_append_right _ _ _ _ (by omega),
      show pre.length + 1 + j - pre.length = j + 1 by omega, List.getD_cons_succ, refusalsBytes,
      take_getD hj]
  have hnext : ∀ i, pre.length + 2 + 2 * i = pre.length + 1 + (2 * i + 1) := fun i => by omega
  refine ⟨?_, fun i hi e he => ⟨?_, fun n c hn hc => ?_⟩, fun i hi hle => ⟨?_, ?_⟩⟩
  · rw [List.getD_append_right _ _ _ _ (Nat.le_refl _), Nat.sub_self, List.getD_cons_zero]
  · rw [hplace _ (by omega)]
    exact (refusals_getD he _).1
  · rw [hnext, hplace _ (by omega), (refusals_getD he _).2, hc, refusalCode_of_place hn]
  · rw [hplace _ (by omega)]
    exact refusals_getD_beyond (by omega)
  · rw [hnext, hplace _ (by omega)]
    exact refusals_getD_beyond (by omega)

/-! ## The OFFER (section 7.2) -/

/-- The flags byte of an OFFER gives its fields back. -/
theorem bits_of_offer : ∀ code < 9, ∀ stray doubt relabelled long : Bool, ∀ f : Byte,
    f = byteOf (stray.toNat + 2 * doubt.toNat + 4 * relabelled.toNat + 8 * code
      + 128 * long.toNat) →
    f.getLsbD 0 = stray ∧ f.getLsbD 1 = doubt ∧ f.getLsbD 2 = relabelled ∧ f.toNat / 8 % 16 = code
      ∧ f.getLsbD 7 = long ∧ decide (f.toNat % 2 = 1) = stray
      ∧ decide (f.toNat / 2 % 2 = 1) = doubt ∧ decide (f.toNat / 4 % 2 = 1) = relabelled
      ∧ decide (f.toNat / 128 = 1) = long := by
  rintro code hcode stray doubt relabelled long _ rfl
  revert stray doubt relabelled long code
  decide

theorem causeCode_lt (c : Option StrayCause) : causeCode c < 9 := by
  rcases c with _ | c
  · simp [causeCode]
  · cases c <;> simp [causeCode]

theorem causeOfCode_causeCode (c : StrayCause) : causeOfCode (causeCode (some c)) = some c := by
  cases c <;> rfl

theorem offerPayload_places (r : Record) : OfferPayloadOf r (offerPayload r) := by
  obtain ⟨h0, h1, h2, hcause, h7, -⟩ := bits_of_offer _ (causeCode_lt r.stray) r.stray.isSome
    r.lengthDoubt r.relabelled r.length.isSome (offerFlags r) rfl
  refine ⟨by simp [offerPayload, refBytes, cabinBytes, u16, refusalsBytes_length], ?_, ?_, rfl,
    u16_value _, ?_⟩
  · exact tagPlaces_of_prefix r _
  · rintro _ rfl
    refine ⟨h0, h1, h2, fun hnone => ?_, fun n c hn hc => ?_, h7⟩
    · show (offerFlags r).toNat / 8 % 16 = 0
      rw [hcause, hnone]
      rfl
    · show (offerFlags r).toNat / 8 % 16 = n + 1
      rw [hcause, hc, causeCode_of_place hn]
  · exact refusalPlaces_of_prefix (pre := refBytes r.ref ++ cabinBytes r.tag
      ++ [tagByte r.tag, offerFlags r, byteOf r.laps] ++ u16 (r.length.getD 0)) r.refusals rfl

/-! ### What the next node reads -/

theorem refOf_refBytes {ref : BagRef} (hst : ref.station ≤ 31) (hseq : ref.seq ≤ 2047) :
    refOf (byteOf ((ref.station * 2048 + ref.seq) / 256)) (byteOf (ref.station * 2048 + ref.seq))
      = ref := by
  have hvalue := u16_value (ref.station * 2048 + ref.seq)
  rw [Nat.mod_eq_of_lt (by omega)] at hvalue
  rw [refOf, ofU16, hvalue]
  cases ref
  simp only [BagRef.mk.injEq] at hst hseq ⊢
  omega

theorem offeredTag_of_tag {g : Option Tag}
    (h : ∀ t, g = some t → validCabin t.cabin = true ∧ t.letter ≤ 7) :
    offeredTag ((byteOf ((g.map (·.cabin)).getD 0 / 256)).toNat * 256
        + (byteOf ((g.map (·.cabin)).getD 0)).toNat) (tagByte g).toNat = some g := by
  rw [u16_value]
  cases g with
  | none => rfl
  | some g =>
    obtain ⟨hcabin, hletter⟩ := h g rfl
    have hrange := validCabin_iff.mp hcabin
    have hmod : g.cabin % 65536 = g.cabin := Nat.mod_eq_of_lt (by omega)
    obtain ⟨cabin, letter, source⟩ := g
    simp only [Option.map_some, Option.getD_some] at hmod hcabin hletter ⊢
    rw [hmod]
    cases source with
    | read =>
      have hbyte : (tagByte (some ⟨cabin, letter, .read⟩)).toNat = letter + 8 := by
        rw [tagByte]
        exact byteOf_toNat_of_lt (by simp [tagStatusCode]; omega)
      have hq : (letter + 8) / 8 = 1 := by omega
      have hm : (letter + 8) % 8 = letter := by omega
      rw [hbyte, offeredTag, hq, hm]
      simp [hcabin]
    | coded =>
      have hbyte : (tagByte (some ⟨cabin, letter, .coded⟩)).toNat = letter + 16 := by
        rw [tagByte]
        exact byteOf_toNat_of_lt (by simp [tagStatusCode]; omega)
      have hq : (letter + 16) / 8 = 2 := by omega
      have hm : (letter + 16) % 8 = letter := by omega
      rw [hbyte, offeredTag, hq, hm]
      simp [hcabin]

theorem refusalOfCode_refusalCode (c : RefusalCause) :
    refusalOfCode (byteOf (refusalCode c)).toNat = some c := by
  cases c <;> rfl

/-- A refusal list reads back. -/
theorem offeredRefusals_flatMap {l : List RefusalEntry} (z : List Byte) (hz : z.all (· == 0#8) = true)
    (h : ∀ e ∈ l, validStation e.station = true) :
    offeredRefusals l.length (l.flatMap refusalBytes ++ z) = some l := by
  induction l with
  | nil =>
    rw [List.length_nil, offeredRefusals]
    exact if_pos hz
  | cons e l ih =>
    have hst := h e List.mem_cons_self
    have hrange : 1 ≤ e.station ∧ e.station ≤ 30 := by simpa [validStation] using hst
    have hbyte := byteOf_toNat_of_lt (n := e.station) (by omega)
    have hrest := ih fun x hx => h x (List.mem_cons_of_mem _ hx)
    show offeredRefusals (l.length + 1) (byteOf e.station :: byteOf (refusalCode e.cause)
      :: (l.flatMap refusalBytes ++ z)) = _
    rw [offeredRefusals, refusalOfCode_refusalCode, hrest, hbyte]
    simp only [hst, if_true]

theorem refusalsBytes_eq {l : List RefusalEntry} (h : l.length ≤ 4) :
    refusalsBytes l = l.flatMap refusalBytes ++ List.replicate (8 - 2 * l.length) 0#8 := by
  rw [refusalsBytes, List.take_append, refusals_flatMap_length, List.take_replicate,
    List.take_of_length_le (by rw [refusals_flatMap_length]; omega)]
  congr 2
  omega

theorem offeredStray_of_flags (r : Record) : offeredStray (offerFlags r).toNat = some r.stray := by
  obtain ⟨-, -, -, hcause, -, hodd, -⟩ := bits_of_offer _ (causeCode_lt r.stray) r.stray.isSome
    r.lengthDoubt r.relabelled r.length.isSome (offerFlags r) rfl
  rw [offeredStray, hcause]
  cases hs : r.stray with
  | none =>
    rw [hs] at hodd
    rw [if_neg (of_decide_eq_false hodd)]
    rfl
  | some c =>
    rw [hs] at hodd
    rw [if_pos (of_decide_eq_true hodd), causeOfCode_causeCode]

theorem offeredLength_of_flags (r : Record) (h : ∀ n, r.length = some n → n ≤ 65535) :
    offeredLength (offerFlags r).toNat ((byteOf (r.length.getD 0 / 256)).toNat * 256
      + (byteOf (r.length.getD 0)).toNat) = some r.length := by
  obtain ⟨-, -, -, -, -, -, -, -, hlong⟩ := bits_of_offer _ (causeCode_lt r.stray) r.stray.isSome
    r.lengthDoubt r.relabelled r.length.isSome (offerFlags r) rfl
  rw [u16_value, offeredLength]
  cases hl : r.length with
  | none =>
    rw [hl] at hlong
    rw [if_neg (of_decide_eq_false hlong)]
    rfl
  | some n =>
    have hn := h n hl
    rw [hl] at hlong
    rw [if_pos (of_decide_eq_true hlong), Option.getD_some, Nat.mod_eq_of_lt (by omega)]

/-- Every carried field comes back (R137, R139). -/
theorem decodeOffer_offerPayload {r : Record} (h : Carryable r) :
    decodeOffer (offerPayload r) = some (carried r) := by
  obtain ⟨hst, hseq, hlaps, htag, hlen, hrefusals, hstations⟩ := h
  have hrange : 1 ≤ r.ref.station ∧ r.ref.station ≤ 30 := by simpa [validStation] using hst
  obtain ⟨-, -, -, -, -, -, hdoubt, hrelabelled, -⟩ := bits_of_offer _ (causeCode_lt r.stray)
    r.stray.isSome r.lengthDoubt r.relabelled r.length.isSome (offerFlags r) rfl
  have href : payloadRef (offerPayload r) = r.ref := refOf_refBytes (by omega) hseq
  have htag' : offeredTag (payloadByte (offerPayload r) 2 * 256 + payloadByte (offerPayload r) 3)
      (payloadByte (offerPayload r) 4) = some r.tag := offeredTag_of_tag htag
  have hstray : offeredStray (payloadByte (offerPayload r) 5) = some r.stray :=
    offeredStray_of_flags r
  have hlength : offeredLength (payloadByte (offerPayload r) 5)
      (payloadByte (offerPayload r) 7 * 256 + payloadByte (offerPayload r) 8) = some r.length :=
    offeredLength_of_flags r hlen
  have hcount : payloadByte (offerPayload r) 9 = r.refusals.length :=
    byteOf_toNat_of_lt (by omega)
  have hlist : offeredRefusals (payloadByte (offerPayload r) 9) ((offerPayload r).drop 10)
      = some r.refusals := by
    rw [hcount]
    show offeredRefusals r.refusals.length (refusalsBytes r.refusals) = _
    rw [refusalsBytes_eq hrefusals]
    exact offeredRefusals_flatMap _ (by simp) hstations
  have hlapsByte : payloadByte (offerPayload r) 6 = r.laps := byteOf_toNat_of_lt (by omega)
  have hflags : payloadByte (offerPayload r) 5 = (offerFlags r).toNat := rfl
  simp only [decodeOffer, href, htag', hstray, hlength, hlist, hst, hlapsByte, hlaps, and_self, if_true]
  simp only [hflags, hdoubt, hrelabelled]
  rfl

/-- Settles O14. -/
theorem offerCarriesTheRecord : Obligations.OfferCarriesTheRecord := fun r h =>
  ⟨offerPayload_places r, decodeOffer_offerPayload h⟩

/-- The seventeen bytes of a STRAY notice (R101). -/
theorem strayPayload_places (r : Record) : StrayPayloadOf r (strayPayload r) := by
  refine ⟨by simp [strayPayload, refBytes, cabinBytes, u16, refusalsBytes_length], ?_,
    fun hnone => ?_, fun n c hn hc => ?_, rfl, rfl, ?_⟩
  · exact tagPlaces_of_prefix r _
  · show byteOf (causeCode r.stray) = 0
    rw [hnone]
    rfl
  · show byteOf (causeCode r.stray) = _
    rw [hc, causeCode_of_place hn]
  · exact refusalPlaces_of_prefix (pre := refBytes r.ref ++ cabinBytes r.tag
      ++ [tagByte r.tag, byteOf (causeCode r.stray), byteOf r.laps, byteOfBool r.relabelled])
      r.refusals rfl

end

end Sys2Proof.Machine

/-! # Reset, START, RUN and FAULT (sections 10.1 to 10.4) -/

namespace Sys2Proof.Machine

section
variable {s t : State}

/-! ## What the arbiter keeps, block by block -/

theorem arbitrate_line (s : State) : (arbitrate s).line = { s.line with
    transmitter := (arbitrate s).line.transmitter
    idleCount := (arbitrate s).line.idleCount } := congrArg (·.line) (arbiterOnly_arbitrate s).1

@[simp] theorem arbitrate_line_rest (s : State) :
    (arbitrate s).line.receiver = s.line.receiver ∧ (arbitrate s).line.buffer = s.line.buffer
      ∧ (arbitrate s).line.rate = s.line.rate ∧ (arbitrate s).line.msBits = s.line.msBits
      ∧ (arbitrate s).line.answers = s.line.answers ∧ (arbitrate s).line.notices = s.line.notices
      ∧ (arbitrate s).line.turn = s.line.turn := by
  rw [arbitrate_line]
  exact ⟨rfl, rfl, rfl, rfl, rfl, rfl, rfl⟩

theorem arbitrate_supervision (s : State) : (arbitrate s).supervision = { s.supervision with
    statusDue := (arbitrate s).supervision.statusDue } :=
  congrArg (·.supervision) (arbiterOnly_arbitrate s).1

@[simp] theorem arbitrate_supervision_rest (s : State) :
    (arbitrate s).supervision.counters = s.supervision.counters
      ∧ (arbitrate s).supervision.flags = s.supervision.flags
      ∧ (arbitrate s).supervision.statusTimer = s.supervision.statusTimer
      ∧ (arbitrate s).supervision.statusPeriod = s.supervision.statusPeriod
      ∧ (arbitrate s).supervision.crowded = s.supervision.crowded := by
  rw [arbitrate_supervision]
  exact ⟨rfl, rfl, rfl, rfl, rfl⟩

@[simp] theorem arbitrate_handoff_lists (s : State) :
    (arbitrate s).handoff.pendingOffers = s.handoff.pendingOffers
      ∧ (arbitrate s).handoff.expected = s.handoff.expected := by
  have h : (arbitrate s).handoff = { s.handoff with outbound := (arbitrate s).handoff.outbound } :=
    congrArg (·.handoff) (arbiterOnly_arbitrate s).1
  rw [h]
  exact ⟨rfl, rfl⟩

/-- The arbiter leaves who holds the outbound offer, and its attempts. -/
theorem arbitrate_outbound (s : State) :
    (arbitrate s).handoff.outbound.map (fun o => (o.ref, o.attempts))
      = s.handoff.outbound.map fun o => (o.ref, o.attempts) := (arbiterOnly_arbitrate s).2

theorem arbitrate_outbound_none (h : s.handoff.outbound = none) :
    (arbitrate s).handoff.outbound = none := by
  have hmap := arbitrate_outbound s
  rw [h] at hmap
  exact Option.map_eq_none_iff.mp hmap

/-- A line whose idle count is at 0 has it at 0 behind the arbiter. -/
theorem idleCount_arbitrate_zero (h : s.line.idleCount = 0) : (arbitrate s).line.idleCount = 0 := by
  rcases idleCount_arbitrate s with hsame | ⟨hzero, -⟩
  · rw [hsame, h]
  · exact hzero

/-! ## Power-up reset and its release -/

theorem reset_counter (c : Counter) : State.reset.counter c = 0 := by
  cases c with
  | delivered k => exact Quad_get_all 0 k
  | _ => rfl

theorem validStation_iff {n : Nat} : validStation n = true ↔ 1 ≤ n ∧ n ≤ 30 :=
  decide_eq_true_iff

/-- Settles O15: reset leaves the power-up values, and its release reads straps and levels. -/
theorem resetAndItsRelease : Obligations.ResetAndItsRelease := by
  refine ⟨fun s => ⟨_, rfl, rfl, rfl, rfl, rfl, rfl, rfl, rfl, rfl, rfl, rfl, rfl, rfl, rfl, rfl, rfl,
    rfl, rfl, rfl, fun k => ?_, rfl, rfl, rfl, rfl, rfl, rfl, rfl, rfl, rfl, rfl, rfl, rfl,
    reset_counter, rfl, rfl, rfl, rfl⟩, fun straps pins s hheld => ?_⟩
  · have hk : State.reset.outlets.get k = Outlet.reset := Quad_get_all _ k
    show (State.reset.outlets.get k).fill = 0 ∧ (State.reset.outlets.get k).faulted = false
      ∧ (State.reset.outlets.get k).lineHold = false
      ∧ decide ((State.reset.outlets.get k).pusher = .extended) = false
      ∧ (State.reset.outlets.get k).dwellTimer = none
      ∧ (State.reset.outlets.get k).homeTimer = none
    rw [hk]
    exact ⟨rfl, rfl, rfl, rfl, rfl, rfl⟩
  · have hexec : exec (.resetRelease straps pins) s = .next (if validStation straps.toNat
        then released straps pins s else faultEntered .strap (released straps pins s)) := by
      show execResetRelease straps pins s = _
      rw [resetRelease_eq, if_neg (by simp [powered, hheld])]
    have houtlets : ∀ k, (released straps pins s).outlets.get k = { s.outlets.get k with
        cartPresent := pins.carts.get k, holdSwitch := pins.holds.get k,
        homeSensor := pins.homes.get k } := fun k => by
      match k with
      | 0 => rfl
      | 1 => rfl
      | 2 => rfl
      | 3 => rfl
    by_cases hvalid : validStation straps.toNat = true
    · rw [if_pos hvalid] at hexec
      have hrange := validStation_iff.mp hvalid
      exact ⟨_, hexec, rfl, rfl, rfl, rfl, houtlets, fun _ => ⟨rfl, rfl, rfl⟩,
        fun h => by omega, rfl, rfl, rfl, rfl, rfl⟩
    · rw [if_neg hvalid] at hexec
      rw [validStation_iff] at hvalid
      exact ⟨_, hexec, rfl, rfl, rfl, rfl, houtlets, fun h => absurd h hvalid,
        fun _ => ⟨rfl, rfl, rfl⟩, rfl, rfl, rfl, rfl, rfl⟩

/-! ## The entry to RUN -/

theorem findPusher_eq (c : NodeConfig) (s : State) (k : OutletNo) :
    (runEntered c s).outlets.get k
      = if (c.outlets.get k).role = .unused ∨ (s.outlets.get k).homeSensor = true
        then { s.outlets.get k with pusher := .home, homeTimer := none }
        else { s.outlets.get k with pusher := .retracting, homeTimer := some 0 } := by
  match k with
  | 0 => rfl
  | 1 => rfl
  | 2 => rfl
  | 3 => rfl

theorem mem_freshCrowdView {c : NodeConfig} {e : CrowdEntry} (h : e ∈ freshCrowdView c) :
    c.watchSet.getLsbD e.station = true ∧ e.crowded = false ∧ e.silent = false ∧ e.age = 0 := by
  unfold freshCrowdView at h
  split at h
  · obtain ⟨n, hn, rfl⟩ := List.mem_map.mp h
    exact ⟨(List.mem_filter.mp hn).2, rfl, rfl, rfl⟩
  · cases h

theorem freshCrowdView_covers {c : NodeConfig} (hind : c.induction = true) {n : Nat} (hn : n < 32)
    (hwatch : c.watchSet.getLsbD n = true) : ∃ e ∈ freshCrowdView c, e.station = n := by
  rw [freshCrowdView, if_pos hind]
  exact ⟨_, List.mem_map.mpr ⟨n, List.mem_filter.mpr ⟨List.mem_range.mpr hn, hwatch⟩, rfl⟩, rfl⟩

theorem exec_startSequenceEnd_good {img : List Byte} (hon : s.start.resetHeld = false)
    (hstart : s.start.node = .start) (hgood : imageFault img = .none) :
    exec (.startSequenceEnd img) s = .next (enterRun (imageValues img) s) := by
  show execStartSequenceEnd img s = _
  rw [startSequenceEnd_eq, if_pos ⟨by simp [powered, hon], hstart⟩, if_pos hgood]

theorem exec_startSequenceEnd_bad {img : List Byte} (hon : s.start.resetHeld = false)
    (hstart : s.start.node = .start) (hbad : imageFault img ≠ .none) :
    exec (.startSequenceEnd img) s = .next (enterFault (imageFault img) (faultRate img) s) := by
  show execStartSequenceEnd img s = _
  rw [startSequenceEnd_eq, if_pos ⟨by simp [powered, hon], hstart⟩, if_neg hbad]

/-! ### Segment clear held at the entry to RUN -/

/-- Segment clear on a node with no record, no offer and not crowded. -/
theorem clearSegment_of_empty (hempty : heldRecords s = []) (hfree : s.handoff.outbound = none)
    (hcalm : s.supervision.crowded = false) :
    clearSegment s
      = arbitrate (decidePermit ((emptyCollections (clearOffer s)).mapOutlets clearOutlet)) := by
  have htable : s.track.table = [] ∧ s.handoff.pendingOffers = [] ∧ s.handoff.expected = [] := by
    simpa [heldRecords, and_assoc] using hempty
  have hclear : clearOffer s = s.mapHandoff fun u => { u with outbound := none } := by
    rw [clearOffer, endOfferFrame, hfree]
  have htagged : clearedTagged s = [] := by
    simp [clearedTagged, htable]
  have hfell : occupancyFell ((emptyCollections (clearOffer s)).mapOutlets clearOutlet)
      = (emptyCollections (clearOffer s)).mapOutlets clearOutlet := by
    rw [occupancyFell, if_neg]
    simp [hclear, emptyCollections, hcalm]
  rw [clearSegment, htagged, hfell]
  rfl

theorem nodeByte_clearing (hrun : s.start.node = .run) (hclear : s.start.clearHeld = true) :
    nodeByte s % 4 = 2 := by
  simp only [nodeByte, hrun, hclear, if_true]
  cases s.position.stopped <;> cases s.induction.permit <;> rfl

theorem clearOutlet_pusher {o : Outlet} (h : o.pusher ≠ .notHome) :
    (clearOutlet o).pusher = o.pusher := by
  simp [clearOutlet, h]

theorem permitConditions_of_clearing (h : s.start.clearHeld = true) : permitConditions s = false := by
  simp [permitConditions, h]

/-- Pushers are HOME or RETRACTING at the entry to RUN, and segment clear leaves them so. -/
theorem clearOutlet_findPusher (c : NodeConfig) (s : State) (k : OutletNo) :
    (clearOutlet ((runEntered c s).outlets.get k)).pusher
      = if (c.outlets.get k).role = .unused ∨ (s.outlets.get k).homeSensor = true
        then .home else .retracting := by
  rw [findPusher_eq]
  split
  · exact clearOutlet_pusher (by simp)
  · exact clearOutlet_pusher (by simp)

/-! ## FAULT lasts until reset -/

/-- A step of a node in FAULT that is no power-up reset. -/
theorem fault_stays {c : Instr} (hfault : s.start.node = .fault) (hc : c ≠ .powerUpReset)
    (h : exec c s = .next t) :
    t.start.node = .fault ∧ (s.start.resetHeld = false → t.start.faultReason = s.start.faultReason) := by
  cases hact : actsOnStart c with
  | false =>
    have hstart := ((exec_outcome hact s).of_next h).1.start_eq
    rw [hstart]
    exact ⟨hfault, fun _ => rfl⟩
  | true =>
    have hrun : ¬inRun s = true := by simp [inRun, hfault]
    revert hc h
    refine actsOnStart_cases (P := fun c => c ≠ .powerUpReset → exec c s = .next t →
      t.start.node = .fault ∧ (s.start.resetHeld = false → t.start.faultReason = s.start.faultReason))
      (fun hc => absurd rfl hc) (fun straps pins _ h => ?_) (fun image _ h => ?_) (fun _ h => ?_)
      (fun _ h => ?_) (fun _ h => ?_) c hact
    · replace h : execResetRelease straps pins s = .next t := h
      rw [resetRelease_eq] at h
      cases h
      cases hheld : s.start.resetHeld with
      | false =>
        rw [if_pos (by simp [powered, hheld])]
        exact ⟨hfault, fun _ => rfl⟩
      | true =>
        rw [if_neg (by simp [powered, hheld])]
        refine ⟨?_, fun hfree => by cases hfree⟩
        split
        · exact hfault
        · rfl
    · replace h : execStartSequenceEnd image s = .next t := h
      rw [startSequenceEnd_eq, if_neg (by simp [hfault])] at h
      cases h
      exact ⟨hfault, fun _ => rfl⟩
    · replace h : execSegmentClearAssert s = .next t := h
      unfold execSegmentClearAssert at h
      simp only [if_neg hrun] at h
      cases h
      split
      · exact ⟨hfault, fun _ => rfl⟩
      · exact ⟨hfault, fun _ => rfl⟩
    · replace h : execSegmentClearRelease s = .next t := h
      cases h
      split
      · exact ⟨hfault, fun _ => rfl⟩
      · exact ⟨hfault, fun _ => rfl⟩
    · rw [encoderPulse_eq] at h
      cases h
      split
      · rw [(decidePermit_rest (s := countPulse s)).2.2.2.2.2.2.2.1, countPulse_eq]
        exact ⟨hfault, fun _ => rfl⟩
      · exact ⟨hfault, fun _ => rfl⟩

/-- Settles O17: the entry to RUN, with segment clear free and held, the entry to FAULT, and that FAULT
lasts. -/
theorem startEndsInRunOrFault : Obligations.StartEndsInRunOrFault := by
  refine ⟨fun img s hon hstart hfree hgood => ?_, fun img s hon hstart hbad => ?_,
    fun img s hon hstart hclear hgood hempty hnone hcalm => ?_, fun s t hfault hhead h => ?_⟩
  · have hpermit := permitFollows_arbitrate_decidePermit (runEntered (imageValues img) s)
    have hexec := exec_startSequenceEnd_good hon hstart hgood
    rw [enterRun_eq, if_neg (by simp [hfree])] at hexec
    have hview : (arbitrate (decidePermit (runEntered (imageValues img) s))).induction.crowdView
        = freshCrowdView (imageValues img) := by
      simp
      rfl
    refine ⟨_, hexec, by simp; rfl, fun k => ?_, by simp; rfl, by simp; rfl,
      idleCount_arbitrate_zero rfl, by simp; rfl, by simp; rfl, by simp; rfl,
      statusDue_arbitrate (by simp [runEntered, startStatus]), by simp; rfl, by simp; rfl,
      fun e he => mem_freshCrowdView ?_, fun hind n hn hwatch => ?_, hpermit, by simp; rfl, by simp; rfl,
      by simp; rfl⟩
    · rw [← findPusher_eq]
      simp
    · rwa [hview] at he
    · rw [hview]
      exact freshCrowdView_covers hind hn hwatch
  · have hexec := exec_startSequenceEnd_bad hon hstart hbad
    rw [enterFault_eq] at hexec
    by_cases hshort : img.length < 256
    · rw [faultRate, if_pos hshort] at hexec
      exact ⟨_, hexec, rfl, fun r hlong => by omega, fun _ => ⟨rfl, rfl⟩, rfl, by
        simp [faultEntered, startStatus], rfl, rfl, rfl, rfl, rfl⟩
    · rw [faultRate, if_neg hshort] at hexec
      cases hrate : rateOfDivide (imageByte img 1) with
      | none =>
        rw [hrate] at hexec
        exact ⟨_, hexec, rfl, fun r _ hr => by simp at hr, fun _ => ⟨rfl, rfl⟩, rfl, by
          simp [faultEntered, startStatus], rfl, rfl, rfl, rfl, rfl⟩
      | some rate =>
        rw [hrate] at hexec
        refine ⟨_, hexec, by simp; rfl, fun r _ hr => ?_, fun h => ?_, ?_,
          statusDue_arbitrate (by simp [joinLine, faultEntered, startStatus]), by simp; rfl,
          by simp; rfl, by simp; rfl, by simp; rfl, by simp; rfl⟩
        · cases hr
          exact ⟨by simp; rfl, idleCount_arbitrate_zero rfl, by simp; rfl⟩
        · simp [hshort] at h
        · exact arbitrate_supervision _
  · have hexec := exec_startSequenceEnd_good hon hstart hgood
    rw [enterRun_eq, if_pos hclear, clearSegment_of_empty (s := runEntered (imageValues img) s) hempty hnone
      hcalm] at hexec
    have hoffer : clearOffer (runEntered (imageValues img) s)
        = (runEntered (imageValues img) s).mapHandoff fun u => { u with outbound := none } := by
      show State.mapHandoff _ (endOfferFrame _) = _
      rw [endOfferFrame, show (runEntered (imageValues img) s).handoff.outbound = none from hnone]
    rw [hoffer] at hexec
    refine ⟨_, hexec, by simp; rfl, nodeByte_clearing (by simp; rfl) (by simp; exact hclear), ?_, ?_,
      arbitrate_outbound_none rfl, by simp; rfl, by simp; rfl, by simp; rfl, by simp; rfl,
      idleCount_arbitrate_zero rfl, by simp; rfl, by simp; rfl, by simp; rfl,
      statusDue_arbitrate (by simp [emptyCollections, runEntered, startStatus]), by simp; rfl,
      fun k => ?_, fun e he => (mem_freshCrowdView (c := imageValues img) ?_).2, by simp; rfl,
      by simp; rfl, by simp; rfl⟩
    · rw [(arbitrate_rest (s := decidePermit _)).2.2.2.2.1]
      exact permitConditions_of_clearing hclear
    · simp [heldRecords, emptyCollections]
    · rw [← clearOutlet_findPusher]
      simp [emptyCollections]
    · rwa [(arbitrate_rest (s := decidePermit _)).2.2.2.2.1] at he
  · rcases step_cases h with ⟨c, rest, hp, hexec⟩ | ⟨-, heffect⟩
    · refine fault_stays (s := { s with pending := rest }) hfault ?_ hexec
      rintro rfl
      simp [hp] at hhead
    · rw [heffect.start_eq]
      exact ⟨hfault, fun _ => rfl⟩

end

end Sys2Proof.Machine

/-! # The transmitter's line (section 6.4) -/

namespace Sys2Proof.Machine

section
variable {s t : State}

theorem frameGap_le (h : HeldFrame) : frameGap h ≤ 24 := by
  unfold frameGap
  split <;> omega

theorem enterWaitGap_of_gap {h : HeldFrame} (hgap : frameGap h ≤ s.line.idleCount) :
    enterWaitGap h s = { s with line := { s.line with transmitter := .sending h, idleCount := 0 } } := by
  show State.mk _ _ _ _ (if _ then _ else _) _ _ _ _ _ = _
  rw [if_pos hgap]

theorem enterWaitGap_of_below {h : HeldFrame} (hgap : ¬frameGap h ≤ s.line.idleCount) :
    enterWaitGap h s = { s with line := { s.line with transmitter := .waitGap h } } := by
  show State.mk _ _ _ _ (if _ then _ else _) _ _ _ _ _ = _
  rw [if_neg hgap]

theorem exec_gapReached {h : HeldFrame} (htr : s.line.transmitter = .waitGap h) :
    exec .gapReached s
      = .next { s with line := { s.line with transmitter := .sending h, idleCount := 0 } } := by
  have hexec : exec .gapReached s
      = .next (enterWaitGap h (s.mapLine (idleBits (frameGap h - s.line.idleCount)))) := by
    show execGapReached s = _
    rw [execGapReached, htr]
  have hgap : frameGap h
      ≤ (s.mapLine (idleBits (frameGap h - s.line.idleCount))).line.idleCount := by
    have := frameGap_le h
    show frameGap h ≤ min 255 (s.line.idleCount + (frameGap h - s.line.idleCount))
    omega
  rw [hexec, enterWaitGap_of_gap hgap]
  rfl

theorem gapReached_due_iff {h : HeldFrame} (htr : s.line.transmitter = .waitGap h) :
    EventDue s .gapReached ↔ (if h.source = .answer then 6 else 24) ≤ s.line.idleCount := by
  refine ⟨fun hdue => ?_, fun hgap => .gapReached h htr hgap⟩
  cases hdue with
  | cabinEntry e rest c hn he hc => simp at hc
  | gapReached x hx hgap =>
    rw [htr] at hx
    cases hx
    exact hgap

theorem backoffEnd_due_iff {h : HeldFrame} {len count : Nat}
    (htr : s.line.transmitter = .backoff h len count) :
    EventDue s .backoffEnd ↔ len ≤ count := by
  refine ⟨fun hdue => ?_, fun hle => .backoffEnd h len count htr hle⟩
  cases hdue with
  | cabinEntry e rest c hn he hc => simp at hc
  | backoffEnd x m n hx hle =>
    rw [htr] at hx
    cases hx
    exact hle

/-! ## The end of a frame that is sent or dropped -/

/-- The Line Interface once the frame of a source has gone (R116, R118, R120, R121, R123). -/
def frameGone (src : FrameSource) (l : LineInterface) : LineInterface :=
  { l with
    transmitter := .idle, idleCount := 0
    answers := if src = .answer then l.answers.tail else l.answers
    notices := if src = .notices then l.notices.tail else l.notices
    turn := turnAfter src l.turn }

theorem turnAfter_eq (src : FrameSource) (turn : Turn) :
    turnAfter src turn = match src with
      | .answer => turn
      | .offer => .notices
      | .notices => .status
      | .status => .offer := by
  cases src <;> rfl

theorem offerSent_eq (s : State) : offerSent s = { s with
    handoff := { s.handoff with outbound := s.handoff.outbound.map fun o =>
      if o.stage = .onLine then { o with stage := .listening 0, attempts := o.attempts + 1 } else o } }
    := by
  unfold offerSent offerStage
  cases ho : s.handoff.outbound with
  | none =>
    show s = { s with handoff := { s.handoff with outbound := none } }
    rw [← ho]
  | some o =>
    by_cases hstage : o.stage = .onLine
    · simp [hstage, setStage, countAttempt, ho, State.mapHandoff]
    · simp only [Option.map_some, Option.some.injEq, hstage, if_false]
      rw [← ho]

/-- A frame that has been sent (R116). -/
theorem exec_frameSent {h : HeldFrame} (htr : s.line.transmitter = .sending h) :
    exec .frameSent s = .next (arbitrate (tellSent h.source (releaseTransmitter h.source s))) := by
  show execFrameSent s = _
  rw [execFrameSent, htr]

theorem tellSent_line (src : FrameSource) (s : State) :
    (tellSent src (releaseTransmitter src s)).line = frameGone src s.line := by
  cases src with
  | offer =>
    show (offerSent _).line = _
    rw [offerSent_eq]
    rfl
  | _ => rfl

theorem tellSent_supervision (src : FrameSource) (s : State) :
    (tellSent src (releaseTransmitter src s)).supervision = { s.supervision with
      statusDue := if src = .status then .notDue else s.supervision.statusDue } := by
  cases src with
  | offer =>
    show (offerSent _).supervision = _
    rw [offerSent_eq]
    rfl
  | _ => rfl

theorem tellSent_handoff (src : FrameSource) (s : State) :
    (tellSent src (releaseTransmitter src s)).handoff = { s.handoff with
      outbound := s.handoff.outbound.map fun o => if src = .offer ∧ o.stage = .onLine
        then { o with stage := .listening 0, attempts := o.attempts + 1 } else o } := by
  cases src with
  | offer =>
    show (offerSent _).handoff = _
    rw [offerSent_eq]
    simp [releaseTransmitter]
  | _ =>
    simp only [reduceCtorEq, false_and, if_false, Option.map_id']
    rfl

theorem tellSent_rest (src : FrameSource) (s : State) :
    (tellSent src (releaseTransmitter src s)).track = s.track
      ∧ (tellSent src (releaseTransmitter src s)).resolution = s.resolution
      ∧ (tellSent src (releaseTransmitter src s)).outlets = s.outlets
      ∧ (tellSent src (releaseTransmitter src s)).induction = s.induction
      ∧ (tellSent src (releaseTransmitter src s)).position = s.position
      ∧ (tellSent src (releaseTransmitter src s)).start = s.start := by
  cases src with
  | offer =>
    show (offerSent _).track = _ ∧ (offerSent _).resolution = _ ∧ (offerSent _).outlets = _
      ∧ (offerSent _).induction = _ ∧ (offerSent _).position = _ ∧ (offerSent _).start = _
    rw [offerSent_eq]
    exact ⟨rfl, rfl, rfl, rfl, rfl, rfl⟩
  | _ => exact ⟨rfl, rfl, rfl, rfl, rfl, rfl⟩

theorem frameGone_eq (src : FrameSource) (l : LineInterface) : frameGone src l = { l with
    transmitter := .idle, idleCount := 0
    answers := if src = .answer then l.answers.tail else l.answers
    notices := if src = .notices then l.notices.tail else l.notices
    turn := match src with
      | .answer => l.turn
      | .offer => .notices
      | .notices => .status
      | .status => .offer } := by
  cases src <;> rfl

/-- Settles O58: a frame is sent at its gap, and leaves its source when it has been sent. -/
theorem sentFramesLeaveTheirSource : Obligations.SentFramesLeaveTheirSource := by
  refine fun s h => ⟨fun htr hon => ?_, exec_gapReached, fun htr => ?_⟩
  · rw [mem_dueEvents, gapReached_due_iff htr]
    exact and_iff_right hon
  · have hhandoff := tellSent_handoff h.source s
    obtain ⟨htrack, hres, hout, hind, hpos, hstart⟩ := tellSent_rest h.source s
    refine ⟨_, exec_frameSent htr, (tellSent_line h.source s).trans (frameGone_eq h.source s.line),
      tellSent_supervision h.source s, fun o ho => ?_, fun hnone => ?_, htrack, hres, hout, hind, hpos,
      hstart, congrArg (·.pendingOffers) hhandoff, congrArg (·.expected) hhandoff⟩
    · rw [hhandoff, ho]
      rfl
    · rw [hhandoff, hnone, Option.map_none, ← hnone]

/-! ## Collisions -/

/-- What the collided frame's counters do: outside FAULT they rise (R182). -/
theorem bumpOutsideFault_eq (c : Counter) (s : State) : bumpOutsideFault c s = { s with
    supervision := if s.start.node = .fault then s.supervision else raised c s.supervision } := by
  unfold bumpOutsideFault
  split
  · rfl
  · rw [bump_eq]

/-- The sixteenth collision's frame is dropped, before its source is told (R118). -/
def frameDropped (src : FrameSource) (s : State) : State :=
  bumpOutsideFault .lineAborts (releaseTransmitter src (bumpOutsideFault .collisions s))

theorem frameDropped_eq (src : FrameSource) (s : State) : frameDropped src s = { s with
    line := { s.line with
      transmitter := .idle, turn := turnAfter src s.line.turn, idleCount := 0 }
    supervision := if s.start.node = .fault then s.supervision
      else raised .lineAborts (raised .collisions s.supervision) } := by
  rw [frameDropped, bumpOutsideFault_eq, bumpOutsideFault_eq]
  by_cases hn : s.start.node = .fault
  · simp [releaseTransmitter, State.mapLine, hn]
  · simp [releaseTransmitter, State.mapLine, hn]

theorem exec_collision_backs_off {h : HeldFrame} (htr : s.line.transmitter = .sending h)
    (hfew : h.collisions + 1 < 16) :
    exec .collision s = .next (enterBackoff h (bumpOutsideFault .collisions s)) := by
  show execCollision s = _
  simp only [execCollision, htr, if_pos hfew]

theorem exec_collision_drops {h : HeldFrame} (htr : s.line.transmitter = .sending h)
    (hmany : 16 ≤ h.collisions + 1) :
    exec .collision s = .next (arbitrate (tellAborted h.source (frameDropped h.source s))) := by
  show execCollision s = _
  simp only [execCollision, htr, if_neg (Nat.not_lt.mpr hmany)]
  rfl

theorem offerLost_of_onLine {o : Outbound} (ho : s.handoff.outbound = some o)
    (hstage : o.stage = .onLine) : offerLost s = { s with
      supervision := raised .noAnswers s.supervision
      handoff := { s.handoff with outbound := some { o with
        attempts := o.attempts + 1
        stage := if o.attempts + 1 < s.start.image.attemptLimit then .resting 0 else .spent } } } := by
  have hcount : countAttempt s = { s with handoff := { s.handoff with
      outbound := some { o with attempts := o.attempts + 1 } } } := by
    simp [countAttempt, State.mapHandoff, ho]
  rw [offerLost, if_pos (by simp [offerStage, ho, hstage]), bump_eq, hcount]
  rfl

theorem offerLost_of_not_onLine (h : offerStage s ≠ some .onLine) : offerLost s = s := if_neg h

theorem tellAborted_line (src : FrameSource) (s : State) :
    (tellAborted src (frameDropped src s)).line = frameGone src s.line := by
  have hdrop := frameDropped_eq src s
  cases src with
  | offer =>
    show (offerLost _).line = _
    cases ho : (frameDropped .offer s).handoff.outbound with
    | none =>
      rw [offerLost_of_not_onLine (by simp [offerStage, ho]), hdrop]
      rfl
    | some o =>
      by_cases hstage : o.stage = .onLine
      · rw [offerLost_of_onLine ho hstage, hdrop]
        rfl
      · rw [offerLost_of_not_onLine (by simp [offerStage, ho, hstage]), hdrop]
        rfl
  | _ =>
    rw [hdrop]
    rfl

theorem tellAborted_rest (src : FrameSource) (s : State) :
    (tellAborted src s).track = s.track ∧ (tellAborted src s).resolution = s.resolution
      ∧ (tellAborted src s).outlets = s.outlets ∧ (tellAborted src s).induction = s.induction
      ∧ (tellAborted src s).position = s.position ∧ (tellAborted src s).start = s.start := by
  cases src with
  | offer =>
    show (offerLost s).track = _ ∧ (offerLost s).resolution = _ ∧ (offerLost s).outlets = _
      ∧ (offerLost s).induction = _ ∧ (offerLost s).position = _ ∧ (offerLost s).start = _
    cases ho : s.handoff.outbound with
    | none =>
      rw [offerLost_of_not_onLine (by simp [offerStage, ho])]
      exact ⟨rfl, rfl, rfl, rfl, rfl, rfl⟩
    | some o =>
      by_cases hstage : o.stage = .onLine
      · rw [offerLost_of_onLine ho hstage]
        exact ⟨rfl, rfl, rfl, rfl, rfl, rfl⟩
      · rw [offerLost_of_not_onLine (by simp [offerStage, ho, hstage])]
        exact ⟨rfl, rfl, rfl, rfl, rfl, rfl⟩
  | _ => exact ⟨rfl, rfl, rfl, rfl, rfl, rfl⟩

/-- A dropped frame that is no OFFER ON LINE. -/
theorem tellAborted_of_not_onLine {src : FrameSource}
    (h : src = .offer → offerStage s ≠ some .onLine) :
    (tellAborted src s).supervision = { s.supervision with
        statusDue := if src = .status then .notDue else s.supervision.statusDue }
      ∧ (tellAborted src s).handoff = s.handoff := by
  cases src with
  | offer =>
    show (offerLost s).supervision = _ ∧ (offerLost s).handoff = _
    rw [offerLost_of_not_onLine (h rfl)]
    exact ⟨rfl, rfl⟩
  | _ => exact ⟨rfl, rfl⟩

theorem exec_backoffEnd {h : HeldFrame} {len count : Nat}
    (htr : s.line.transmitter = .backoff h len count) :
    exec .backoffEnd s = .next (enterWaitGap h (s.mapLine (idleBits (len - count)))) := by
  show execBackoffEnd s = _
  rw [execBackoffEnd, htr]

theorem enterWaitGap_mapLine_idleBits (h : HeldFrame) (n : Nat) (s : State) :
    enterWaitGap h (s.mapLine (idleBits n)) = { s with line := { s.line with
      transmitter := (enterWaitGap h (s.mapLine (idleBits n))).line.transmitter
      idleCount := (enterWaitGap h (s.mapLine (idleBits n))).line.idleCount } } := by
  by_cases hgap : frameGap h ≤ (s.mapLine (idleBits n)).line.idleCount
  · rw [enterWaitGap_of_gap hgap]
    rfl
  · rw [enterWaitGap_of_below hgap]
    rfl

/-- Settles O59: a collided frame backs off, and the sixteenth collision drops it. -/
theorem collisionsBackOff : Obligations.CollisionsBackOff := by
  rintro s h _ len count rises rfl rfl
  refine ⟨fun htr hfew => ?_, fun htr hmany => ?_, fun htr => ⟨fun hon => ?_, _, exec_backoffEnd htr,
    gapEntered_enterWaitGap h (s.mapLine (idleBits (len - count))),
    enterWaitGap_mapLine_idleBits h _ s⟩⟩
  · rw [exec_collision_backs_off htr hfew, bumpOutsideFault_eq]
    rfl
  · obtain ⟨htrack, hres, hout, hind, hpos, hstart⟩ :=
      tellAborted_rest h.source (frameDropped h.source s)
    have hdrop := frameDropped_eq h.source s
    refine ⟨_, exec_collision_drops htr hmany,
      (tellAborted_line h.source s).trans (frameGone_eq h.source s.line), fun hnot => ?_,
      fun o hsrc ho hstage => ?_, htrack.trans (by rw [hdrop]), hres.trans (by rw [hdrop]),
      hout.trans (by rw [hdrop]), hind.trans (by rw [hdrop]), hpos.trans (by rw [hdrop]),
      hstart.trans (by rw [hdrop])⟩
    · have hstage : h.source = .offer → offerStage (frameDropped h.source s) ≠ some .onLine := by
        intro hsrc hline
        rw [offerStage, hdrop] at hline
        obtain ⟨o, ho, hstage⟩ := Option.map_eq_some_iff.mp hline
        exact hnot o hsrc ho hstage
      obtain ⟨hsup, hhandoff⟩ := tellAborted_of_not_onLine hstage
      rw [hsup, hhandoff, hdrop]
      by_cases hn : s.start.node = .fault
      · simp [hn]
      · simp [hn]
    · have ho' : (frameDropped h.source s).handoff.outbound = some o := by rw [hdrop]; exact ho
      have hlost : tellAborted h.source (frameDropped h.source s) = offerLost (frameDropped h.source s) := by
        rw [hsrc]
        rfl
      rw [hlost, offerLost_of_onLine ho' hstage, hdrop]
      by_cases hn : s.start.node = .fault
      · simp [hn]
      · simp [hn]
  · rw [mem_dueEvents, backoffEnd_due_iff htr]
    exact and_iff_right hon

end

end Sys2Proof.Machine

/-! # Segment clear (section 10.5) -/

namespace Sys2Proof.Machine

section
variable {s t : State}

/-! ## Several notices -/

/-- Notices handed over one after another (R121). -/
def queueNotices (l : List OutFrame) (s : State) : State := l.foldl (fun t f => queueNotice f t) s

theorem queueMissing_eq (l : List Record) (s : State) :
    queueMissing l s = queueNotices (l.map missingNotice) s := by
  rw [queueNotices, List.foldl_map]
  rfl

@[simp] theorem queueNotices_rest (l : List OutFrame) (s : State) :
    (queueNotices l s).position = s.position ∧ (queueNotices l s).track = s.track
      ∧ (queueNotices l s).resolution = s.resolution ∧ (queueNotices l s).outlets = s.outlets
      ∧ (queueNotices l s).handoff = s.handoff ∧ (queueNotices l s).induction = s.induction
      ∧ (queueNotices l s).start = s.start := by
  induction l generalizing s with
  | nil => exact ⟨rfl, rfl, rfl, rfl, rfl, rfl, rfl⟩
  | cons f l ih =>
    show (queueNotices l (queueNotice f s)).position = _ ∧ (queueNotices l (queueNotice f s)).track = _
      ∧ (queueNotices l (queueNotice f s)).resolution = _
      ∧ (queueNotices l (queueNotice f s)).outlets = _
      ∧ (queueNotices l (queueNotice f s)).handoff = _
      ∧ (queueNotices l (queueNotice f s)).induction = _
      ∧ (queueNotices l (queueNotice f s)).start = _
    simpa using ih (queueNotice f s)

/-- The Line Interface once notices have been handed over: what finds room stands at the tail. -/
theorem queueNotice_line (f : OutFrame) (s : State) : (queueNotice f s).line = { s.line with
    notices := (s.line.notices ++ [f]).take (max 8 s.line.notices.length) } := by
  unfold queueNotice
  by_cases hroom : s.line.notices.length < Config.noticeCapacity
  · have hlen : (s.line.notices ++ [f]).length ≤ max 8 s.line.notices.length := by
      rw [List.length_append, List.length_singleton]
      have : s.line.notices.length < 8 := hroom
      omega
    rw [if_pos hroom, List.take_of_length_le hlen]
    rfl
  · have hmax : max 8 s.line.notices.length = s.line.notices.length :=
      max_eq_right (Nat.not_lt.mp hroom)
    rw [if_neg hroom, hmax, List.take_left]
    simp

/-- Taking twice from a list that grows in between is taking once. -/
theorem take_append_take {α : Type} (l m : List α) (n : Nat) :
    (l.take n ++ m).take n = (l ++ m).take n := by
  rw [List.take_append, List.take_append, List.take_take, Nat.min_self, List.length_take]
  congr 2
  omega

theorem max_length_take {α : Type} (l m : List α) :
    max 8 ((l ++ m).take (max 8 l.length)).length = max 8 l.length := by
  rw [List.length_take, List.length_append]
  omega

theorem queueNotices_line (l : List OutFrame) (s : State) : (queueNotices l s).line = { s.line with
    notices := (s.line.notices ++ l).take (max 8 s.line.notices.length) } := by
  induction l generalizing s with
  | nil =>
    rw [List.append_nil, List.take_of_length_le (by omega)]
    rfl
  | cons f l ih =>
    show (queueNotices l (queueNotice f s)).line = _
    rw [ih, queueNotice_line]
    simp only [max_length_take, take_append_take, List.append_assoc, List.singleton_append]

/-- QUEUE DROP takes a value. -/
def withDrop (b : Bool) (u : SupervisionUnit) : SupervisionUnit :=
  { u with flags := { u.flags with queueDrop := b } }

/-- The Supervision Unit once `n` notices have been dropped (R121). -/
def noticesDropped (n : Nat) (u : SupervisionUnit) : SupervisionUnit :=
  withDrop (u.flags.queueDrop || decide (0 < n)) (raisedTimes .droppedNotices n u)

theorem raisedTimes_withDrop (n : Nat) (b : Bool) (u : SupervisionUnit) :
    raisedTimes .droppedNotices n (withDrop b u) = withDrop b (raisedTimes .droppedNotices n u) := by
  induction n generalizing u with
  | zero => rfl
  | succ n ih => exact ih (raised .droppedNotices u)

theorem raisedTimes_withCrowded (n : Nat) (b : Bool) (u : SupervisionUnit) :
    raisedTimes .droppedNotices n { u with crowded := b }
      = { raisedTimes .droppedNotices n u with crowded := b } := by
  induction n generalizing u with
  | zero => rfl
  | succ n ih => exact ih (raised .droppedNotices u)

theorem noticesDropped_zero (u : SupervisionUnit) : noticesDropped 0 u = u := by
  rw [noticesDropped, show decide (0 < 0) = false from rfl, Bool.or_false]
  rfl

theorem noticesDropped_one (u : SupervisionUnit) :
    noticesDropped 1 u = withDrop true (raised .droppedNotices u) := by
  rw [noticesDropped, show decide (0 < 1) = true from rfl, Bool.or_true]
  rfl

theorem noticesDropped_add (m n : Nat) (u : SupervisionUnit) :
    noticesDropped (m + n) u = noticesDropped n (noticesDropped m u) := by
  have htimes : raisedTimes .droppedNotices (m + n) u
      = raisedTimes .droppedNotices n (raisedTimes .droppedNotices m u) := by
    rw [raisedTimes, Nat.add_comm, Function.iterate_add_apply]
    rfl
  have hsome : decide (0 < m + n) = (decide (0 < m) || decide (0 < n)) := by
    rw [← Bool.decide_or]
    congr 1
    exact propext (by omega)
  calc noticesDropped (m + n) u
      = withDrop (u.flags.queueDrop || decide (0 < m + n))
          (raisedTimes .droppedNotices n (raisedTimes .droppedNotices m u)) := by
        rw [noticesDropped, htimes]
    _ = withDrop ((u.flags.queueDrop || decide (0 < m)) || decide (0 < n))
          (withDrop (u.flags.queueDrop || decide (0 < m))
            (raisedTimes .droppedNotices n (raisedTimes .droppedNotices m u))) := by
        rw [hsome, Bool.or_assoc]
        rfl
    _ = noticesDropped n (noticesDropped m u) := by
        rw [← raisedTimes_withDrop]
        rfl

theorem queueNotice_supervision (hn : s.start.node ≠ .fault) (f : OutFrame) :
    (queueNotice f s).supervision = noticesDropped (1 - (8 - s.line.notices.length)) s.supervision := by
  unfold queueNotice
  by_cases hroom : s.line.notices.length < Config.noticeCapacity
  · have hlost : 1 - (8 - s.line.notices.length) = 0 := by
      have : s.line.notices.length < 8 := hroom
      omega
    rw [if_pos hroom, hlost, noticesDropped_zero]
    rfl
  · have hlost : 1 - (8 - s.line.notices.length) = 1 := by
      have : 8 ≤ s.line.notices.length := Nat.not_lt.mp hroom
      omega
    rw [if_neg hroom, hlost, bumpOutsideFault, if_neg hn, bump_eq, noticesDropped_one]
    rfl

/-- A dropped notice more for each one that finds no room. -/
theorem queueNotices_supervision (l : List OutFrame) (hn : s.start.node ≠ .fault) :
    (queueNotices l s).supervision
      = noticesDropped (l.length - (8 - s.line.notices.length)) s.supervision := by
  induction l generalizing s with
  | nil =>
    rw [List.length_nil, Nat.zero_sub, noticesDropped_zero]
    rfl
  | cons f l ih =>
    have hlen : (queueNotice f s).line.notices.length
        = min (max 8 s.line.notices.length) (s.line.notices.length + 1) := by
      simp [queueNotice_line]
    show (queueNotices l (queueNotice f s)).supervision = _
    rw [ih (by simpa using hn), queueNotice_supervision hn, ← noticesDropped_add, hlen,
      List.length_cons]
    congr 1
    omega

/-! ## The assertion -/

/-- The node once segment clear has emptied its collections and settled its outlets (R184). -/
def emptied (s : State) : State := (emptyCollections (clearOffer s)).mapOutlets clearOutlet

theorem clearSegment_eq (s : State) : clearSegment s = arbitrate
    (queueMissing (clearedTagged s) (decidePermit (occupancyFell (emptied s)))) := rfl

theorem emptied_eq (s : State) : emptied s = { s with
    track := { s.track with table := [], openEntry := none, openMerge := none }
    handoff := { outbound := none, pendingOffers := [], expected := [] }
    resolution := { s.resolution with
      requests := [], service := s.resolution.service.map fun v => { v with owner := none } }
    outlets := s.outlets.map clearOutlet
    line := (endOfferFrame s).line } := by
  rw [emptied, clearOffer, endOfferFrame_eq]
  rfl

/-- The CROWD notice of a segment clear (R158, R159). -/
def crowdOff (s : State) : List OutFrame :=
  if s.supervision.crowded then [OutFrame.mk 31 .crowd [0, 0]] else []

theorem crowdOff_length (s : State) :
    (crowdOff s).length = if s.supervision.crowded then 1 else 0 := by
  unfold crowdOff
  split <;> rfl

/-- A node with no record in its table is crowded no longer (R158). -/
theorem occupancyFell_of_empty (hn : s.start.node ≠ .fault) (htable : s.track.table = []) :
    (occupancyFell s).line = { s.line with
        notices := (s.line.notices ++ crowdOff s).take (max 8 s.line.notices.length) }
      ∧ (occupancyFell s).supervision
        = noticesDropped ((crowdOff s).length - (8 - s.line.notices.length))
          { s.supervision with crowded := false }
      ∧ (occupancyFell s).induction = { s.induction with
        crowdView := s.induction.crowdView.map fun e =>
          if s.supervision.crowded = true ∧ e.station = s.start.station
          then { e with crowded := false } else e } := by
  have hocc : occupancy s = 0 := by rw [occupancy, htable]; rfl
  cases hcrowd : s.supervision.crowded with
  | false =>
    have hcalm : { s.supervision with crowded := false } = s.supervision := by rw [← hcrowd]
    rw [occupancyFell, if_neg (by simp [hcrowd]), crowdOff, if_neg (by simp [hcrowd])]
    refine ⟨?_, ?_, ?_⟩
    · rw [List.append_nil, List.take_of_length_le (by omega)]
    · rw [List.length_nil, Nat.zero_sub, noticesDropped_zero, hcalm]
    · simp
  | true =>
    rw [occupancyFell, if_pos ⟨hcrowd, by rw [hocc]; exact Nat.zero_le _⟩, crowdOff, if_pos hcrowd,
      setCrowded, hocc]
    refine ⟨queueNotice_line _ _, ?_, ?_⟩
    · rw [queueNotice_supervision (by exact hn)]
      rfl
    · simp

theorem clearOutlet_fields (o : Outlet) :
    (clearOutlet o).faulted = false ∧ (clearOutlet o).diverting = []
      ∧ (clearOutlet o).fill = o.fill ∧ (clearOutlet o).lineHold = o.lineHold
      ∧ (clearOutlet o).cartPresent = o.cartPresent
      ∧ (o.pusher = .notHome →
          (clearOutlet o).pusher = .retracting ∧ (clearOutlet o).homeTimer = some 0)
      ∧ (o.pusher ≠ .notHome →
          (clearOutlet o).pusher = o.pusher ∧ (clearOutlet o).homeTimer = o.homeTimer
            ∧ (clearOutlet o).dwellTimer = o.dwellTimer) := by
  refine ⟨rfl, rfl, rfl, rfl, rfl, fun h => ?_, fun h => ?_⟩
  · simp [clearOutlet, h]
  · simp [clearOutlet, h]

theorem clearedTagged_eq (s : State) : clearedTagged s
    = (s.track.table ++ s.handoff.expected ++ s.handoff.pendingOffers).filter
      (fun r => r.tag.isSome) := by
  unfold clearedTagged untagged
  congr 1
  funext r
  cases r.tag <;> rfl

theorem arbitrate_of_sending {h : HeldFrame} (htr : s.line.transmitter = .sending h) :
    arbitrate s = s := by
  unfold arbitrate
  split
  · rfl
  · simp only [takeBack, htr]

theorem endOfferFrame_of_sending {h : HeldFrame} (htr : s.line.transmitter = .sending h) :
    endOfferFrame s = s := by
  rcases endOfferFrame_cases s with hsame | hdrawn
  · exact hsame
  · rw [hdrawn, withdrawOffer, htr]

/-- The node once segment clear has been carried out, before the arbiter goes on (R184). -/
def segmentCleared (s : State) : State :=
  queueMissing (clearedTagged s) (decidePermit (occupancyFell (emptied s)))

theorem segmentCleared_eq (s : State) : segmentCleared s
    = queueNotices ((clearedTagged s).map missingNotice) (decidePermit (occupancyFell (emptied s))) :=
  queueMissing_eq _ _

theorem decidePermit_line (s : State) : (decidePermit s).line = s.line := rfl

theorem decidePermit_supervision (s : State) : (decidePermit s).supervision = s.supervision := rfl

theorem notices_emptied (s : State) : (emptied s).line.notices = s.line.notices := by
  rw [emptied_eq]
  exact (endOfferFrame_line_rest s).2.1

theorem crowdOff_emptied (s : State) : crowdOff (emptied s) = crowdOff s := by
  rw [emptied_eq]
  rfl

/-- What the emptied node's falling occupancy does. -/
theorem occupancyFell_emptied (hn : s.start.node ≠ .fault) :
    (occupancyFell (emptied s)).line = { (endOfferFrame s).line with
        notices := (s.line.notices ++ crowdOff s).take (max 8 s.line.notices.length) }
      ∧ (occupancyFell (emptied s)).supervision
        = noticesDropped ((crowdOff s).length - (8 - s.line.notices.length))
          { s.supervision with crowded := false }
      ∧ (occupancyFell (emptied s)).induction = { s.induction with
        crowdView := s.induction.crowdView.map fun e =>
          if s.supervision.crowded = true ∧ e.station = s.start.station
          then { e with crowded := false } else e } := by
  have h := occupancyFell_of_empty (s := emptied s) (by rwa [emptied_eq]) (by rw [emptied_eq])
  rw [notices_emptied, crowdOff_emptied] at h
  rw [h.1, h.2.1, h.2.2, emptied_eq]
  exact ⟨rfl, rfl, rfl⟩

theorem segmentCleared_line (hn : s.start.node ≠ .fault) :
    (segmentCleared s).line = { (endOfferFrame s).line with
      notices := (s.line.notices ++ crowdOff s ++ (clearedTagged s).map missingNotice).take
        (max 8 s.line.notices.length) } := by
  rw [segmentCleared_eq, queueNotices_line, decidePermit_line, (occupancyFell_emptied hn).1]
  simp only [max_length_take, take_append_take]

theorem segmentCleared_supervision (hn : s.start.node ≠ .fault) :
    (segmentCleared s).supervision
      = noticesDropped ((if s.supervision.crowded then 1 else 0) + (clearedTagged s).length
          - (8 - s.line.notices.length)) { s.supervision with crowded := false } := by
  obtain ⟨hline, hsup, -⟩ := occupancyFell_emptied hn
  have hlen : (decidePermit (occupancyFell (emptied s))).line.notices.length
      = min (max 8 s.line.notices.length) (s.line.notices.length + (crowdOff s).length) := by
    rw [decidePermit_line, hline]
    simp
  rw [segmentCleared_eq, queueNotices_supervision _ (by simpa [emptied_eq] using hn), hlen,
    decidePermit_supervision, hsup, ← noticesDropped_add, List.length_map, ← crowdOff_length]
  congr 1
  omega

theorem segmentCleared_induction (hn : s.start.node ≠ .fault) (hheld : s.start.clearHeld = true) :
    (segmentCleared s).induction = { s.induction with
      permit := false
      crowdView := s.induction.crowdView.map fun e =>
        if s.supervision.crowded = true ∧ e.station = s.start.station
        then { e with crowded := false } else e } := by
  have hpermit : permitConditions (occupancyFell (emptied s)) = false :=
    permitConditions_of_clearing (by simpa [emptied_eq] using hheld)
  rw [segmentCleared_eq, (queueNotices_rest _ _).2.2.2.2.2.1, decidePermit, hpermit,
    mapInduction_induction, (occupancyFell_emptied hn).2.2]

theorem segmentCleared_rest (s : State) :
    (segmentCleared s).start = s.start ∧ (segmentCleared s).position = s.position
      ∧ (segmentCleared s).track
        = { s.track with table := [], openEntry := none, openMerge := none }
      ∧ (segmentCleared s).handoff = { outbound := none, pendingOffers := [], expected := [] }
      ∧ (segmentCleared s).resolution = { s.resolution with
        requests := [], service := s.resolution.service.map fun v => { v with owner := none } }
      ∧ (segmentCleared s).outlets = s.outlets.map clearOutlet := by
  rw [segmentCleared_eq]
  simp [emptied_eq s]

theorem exec_segmentClearAssert (hon : s.start.resetHeld = false) (hrun : s.start.node = .run)
    (hfree : s.start.clearHeld = false) : exec .segmentClearAssert s
      = .next (arbitrate (segmentCleared (s.mapStart fun u => { u with clearHeld := true }))) := by
  show execSegmentClearAssert s = _
  rw [execSegmentClearAssert, if_pos ⟨by simp [powered, hon], hfree⟩, if_pos (by simp [inRun, hrun])]
  rfl

theorem arbitrate_handoff_of_none (h : s.handoff.outbound = none) :
    (arbitrate s).handoff = s.handoff := by
  have heq : (arbitrate s).handoff = { s.handoff with outbound := (arbitrate s).handoff.outbound } :=
    congrArg (·.handoff) (arbiterOnly_arbitrate s).1
  rw [heq, arbitrate_outbound_none h, ← h]

/-- The offer that ends with a segment clear, with its frame. -/
theorem offerWithdrawn_segmentCleared (hn : s.start.node ≠ .fault) :
    OfferWithdrawn s (segmentCleared s) := by
  have h := endOfferFrame_withdraws s
  rw [OfferWithdrawn, segmentCleared_line hn]
  exact h

/-- Settles O60: what segment clear empties and keeps, and what its release decides. -/
theorem segmentClearEmptiesAndReleases : Obligations.SegmentClearEmptiesAndReleases := by
  refine ⟨fun s hon hrun hfree => ?_, fun s hon => ⟨decidePermit (s.mapStart fun u =>
    { u with clearHeld := false }), ?_, rfl⟩⟩
  · obtain ⟨w, hw⟩ : ∃ w, w = s.mapStart fun u => { u with clearHeld := true } := ⟨_, rfl⟩
    have hn : w.start.node ≠ .fault := by simp [hw, hrun]
    have hline := segmentCleared_line hn
    have hsup := segmentCleared_supervision hn
    have hind := segmentCleared_induction hn (by simp [hw])
    obtain ⟨hstart, hpos, htrack, hhandoff, hres, hout⟩ := segmentCleared_rest w
    obtain ⟨hanswers, -, hreceiver, hbuffer, hidle, hrate, hms⟩ := endOfferFrame_line_rest w
    have hexec := exec_segmentClearAssert hon hrun hfree
    rw [← hw] at hexec
    refine ⟨_, hexec, ?_, ?_, ?_, ?_, ?_, fun v hv => ?_, fun k => ?_, ?_, ?_,
      ⟨_, rfl, ?_, ?_⟩, fun h htr => ?_, ?_, ?_, ?_, ?_, fun made lost hmade hlost => ?_, ?_, ?_, ?_,
      ?_, ?_⟩
    · simp [hstart]
      subst hw
      rfl
    · rw [(arbitrate_rest (s := segmentCleared w)).2.1, htrack]
      subst hw
      rfl
    · rw [arbitrate_handoff_of_none (by rw [hhandoff]), hhandoff]
    · simp [hres]
    · simp [hres]
      subst hw
      rfl
    · obtain ⟨x, -, rfl⟩ : ∃ x, w.resolution.service = some x ∧ { x with owner := none } = v := by
        simpa [hres] using hv
      rfl
    · have hk : (arbitrate (segmentCleared w)).outlets.get k = clearOutlet (s.outlets.get k) := by
        simp [hout]
        subst hw
        rfl
      rw [hk]
      exact clearOutlet_fields (s.outlets.get k)
    · rw [(arbitrate_supervision_rest _).2.2.2.2, hsup, noticesDropped, raisedTimes_withCrowded]
      rfl
    · rw [(arbitrate_line_rest _).2.2.2.2.2.1, hline, clearedTagged_eq]
      subst hw
      rfl
    · subst hw
      exact offerWithdrawn_segmentCleared hn
    · rw [hline]
      subst hw
      exact hidle
    · have hsending : (segmentCleared w).line.transmitter = .sending h := by
        rw [hline, endOfferFrame_of_sending (by rw [hw]; exact htr)]
        subst hw
        exact htr
      rwa [arbitrate_of_sending hsending]
    · simp [hline, hreceiver]
      subst hw
      rfl
    · simp [hline, hbuffer]
      subst hw
      rfl
    · simp [hline, hrate]
      subst hw
      rfl
    · simp [hline, hms]
      subst hw
      rfl
    · rw [arbitrate_supervision, hsup, clearedTagged_eq]
      subst hw hmade hlost
      rw [noticesDropped, raisedTimes_withCrowded]
      rfl
    · simp [hind]
      subst hw
      rfl
    · simp [hline, hanswers]
      subst hw
      rfl
    · simp [hind]
      subst hw
      rfl
    · simp [hind]
    · simp [hpos]
      subst hw
      rfl
  · show Host.Outcome.next _ = _
    rw [if_pos (by simp [powered, hon])]

end

end Sys2Proof.Machine

/-! # Outlet inputs, attempts, reader input and the resolution of a record (sections 2.4, 3.3, 4.5, 7.1) -/

namespace Sys2Proof.Machine

section
variable {s t : State}

/-! ## Outlet inputs and pusher timers -/

theorem outletActive_of_run {k : OutletNo} (hrun : s.start.node = .run)
    (hrole : (s.start.image.outlets.get k).role ≠ .unused) : outletActive s k = true := by
  simp [outletActive, inRun, outletImage, hrun, hrole]

theorem powered_of_free (hon : s.start.resetHeld = false) : powered s = true := by
  simp [powered, hon]

theorem exec_dwellExpiry {k : OutletNo} {n : Nat} (hactive : outletActive s k = true)
    (hpusher : (s.outlets.get k).pusher = .extended) (htimer : (s.outlets.get k).dwellTimer = some n) :
    exec (.dwellExpiry k) s = .next { s with
      outlets := s.outlets.set k (if (s.outlets.get k).homeSensor = true
        then { s.outlets.get k with pusher := .home, dwellTimer := none }
        else { s.outlets.get k with
          pusher := .retracting, dwellTimer := none, homeTimer := some 0 }) } := by
  show Host.Outcome.next _ = _
  rw [if_pos ⟨hactive, hpusher, by rw [htimer]; rfl⟩]
  rfl

theorem exec_homeTimeout {k : OutletNo} {n : Nat} (hactive : outletActive s k = true)
    (hpusher : (s.outlets.get k).pusher = .retracting) (htimer : (s.outlets.get k).homeTimer = some n) :
    exec (.homeTimeout k) s = .next { s with
      outlets := s.outlets.set k
        { s.outlets.get k with pusher := .notHome, homeTimer := none, faulted := true } } := by
  show Host.Outcome.next _ = _
  rw [if_pos ⟨hactive, hpusher, by rw [htimer]; rfl⟩]
  rfl

theorem exec_homeSensorEdge {k : OutletNo} {asserted : Bool} (hon : s.start.resetHeld = false) :
    exec (.homeSensorEdge k asserted) s = .next { s with
      outlets := s.outlets.set k (if outletActive s k
        then homeEdge asserted { s.outlets.get k with homeSensor := asserted }
        else { s.outlets.get k with homeSensor := asserted }) } := by
  show Host.Outcome.next _ = _
  rw [if_pos (powered_of_free hon)]
  rfl

/-- The table of R78 moves the pusher and its home timer alone. -/
theorem homeEdge_eq (asserted : Bool) (o : Outlet) : ∃ p timer,
    homeEdge asserted o = { o with pusher := p, homeTimer := timer }
      ∧ (p, timer) = match o.pusher, asserted with
        | .home, false => (.retracting, some 0)
        | .retracting, true => (.home, none)
        | .notHome, true => (.home, o.homeTimer)
        | other, _ => (other, o.homeTimer) := by
  obtain ⟨pusher, dwell, home, faulted, hold, fill, diverting, switch, cart, sensor⟩ := o
  cases pusher <;> cases asserted <;> exact ⟨_, _, rfl, rfl⟩

/-- Settles O36: the timers of the pusher, its sensor's edges, and the cart sensor and hold switch. -/
theorem outletInputsAndTimers : Obligations.OutletInputsAndTimers := by
  refine ⟨?_, ?_, ?_⟩
  · rintro s k _ n hrun hrole rfl
    have hactive := outletActive_of_run hrun hrole
    refine ⟨fun hpusher htimer => ⟨_, exec_dwellExpiry hactive hpusher htimer, ?_, rfl⟩,
      exec_homeTimeout hactive⟩
    simp only [pusherOutput, Quad_get_set_same]
    split <;> rfl
  · rintro s k asserted _ hon rfl
    have hexec := exec_homeSensorEdge (k := k) (asserted := asserted) hon
    cases hactive : outletActive s k with
    | true =>
      obtain ⟨p, timer, hedge, hvalue⟩ :=
        homeEdge_eq asserted { s.outlets.get k with homeSensor := asserted }
      rw [hactive, if_pos rfl, hedge] at hexec
      refine ⟨p, timer, hexec, fun _ => hvalue, fun hnot => ?_⟩
      simp only [outletActive, inRun, outletImage, image_def, Bool.and_eq_true,
        decide_eq_true_eq] at hactive
      rcases hnot with hnot | hnot
      · exact absurd hactive.1 hnot
      · exact absurd hnot (of_decide_eq_true hactive.2)
    | false =>
      rw [hactive, if_neg Bool.false_ne_true] at hexec
      refine ⟨_, _, hexec, fun ⟨hrun, hrole⟩ => ?_, fun _ => ⟨rfl, rfl⟩⟩
      rw [outletActive_of_run hrun hrole] at hactive
      cases hactive
  · intro s k hon
    refine ⟨?_, ?_, fun on => ?_⟩
    · show Host.Outcome.next _ = _
      rw [if_pos (powered_of_free hon)]
      rfl
    · show Host.Outcome.next _ = _
      rw [if_pos (powered_of_free hon)]
      rfl
    · show Host.Outcome.next _ = _
      rw [if_pos (powered_of_free hon)]
      rfl

/-! ## Attempts (R130) -/

theorem afterAttempt_eq {o : Outbound} (ho : s.handoff.outbound = some o) : afterAttempt s = { s with
    handoff := { s.handoff with outbound := some { o with
      stage := if o.attempts < s.start.image.attemptLimit then .resting 0 else .spent } } } := by
  rw [afterAttempt, ho]
  simp only [setStage, State.mapHandoff, ho, Option.map_some]
  rfl

theorem setStage_eq {o : Outbound} {stage : OfferStage} (ho : s.handoff.outbound = some o) :
    setStage stage s = { s with
      handoff := { s.handoff with outbound := some { o with stage := stage } } } := by
  simp [setStage, State.mapHandoff, ho]

theorem answeredOffer_eq {o : Outbound} {f : InFrame} (ho : s.handoff.outbound = some o)
    (href : payloadRef f.payload = o.ref) :
    answeredOffer s f = if o.stage = .spent then none else some o.ref := by
  rw [answeredOffer, ho]
  by_cases hstage : o.stage = .spent
  · simp [hstage]
  · simp [hstage, href]

/-- An answer of the downstream station in RUN. -/
theorem takeAnswer_of_downstream {k : FrameKind} {body : List Byte} {f : InFrame}
    {act : BagRef → State → State} (hrun : s.start.node = .run)
    (hf : handedFrame s k body = some f) (hsrc : f.source = s.start.image.downstream) :
    takeAnswer k body act s = match answeredOffer s f with
      | some ref => act ref (endFrame s)
      | none => endFrame s := by
  simp only [takeAnswer, hf, inRun_of_run hrun, if_true]
  exact if_pos hsrc

theorem takeAnswer_of_foreign {k : FrameKind} {body : List Byte} {f : InFrame}
    {act : BagRef → State → State} (hrun : s.start.node = .run)
    (hf : handedFrame s k body = some f) (hsrc : f.source ≠ s.start.image.downstream) :
    takeAnswer k body act s
      = { frameOver s with supervision := raised .foreignFrames s.supervision } := by
  rw [← bump_endFrame]
  simp only [takeAnswer, hf, inRun_of_run hrun, if_true]
  exact if_neg hsrc

/-- Settles O40: what ends an attempt, and what the end of the repeat interval does. -/
theorem attemptsRestOrAreSpent : Obligations.AttemptsRestOrAreSpent := by
  rintro s o n body f _ ho rfl
  refine ⟨fun hstage => ?_, fun hstage => ?_, fun hrun hf hsrc href => ?_⟩
  · have hexec : exec .replyWindowExpiry s = .next (afterAttempt (bump .noAnswers s)) := by
      show execReplyWindowExpiry s = _
      simp only [execReplyWindowExpiry, offerStage, ho, Option.map_some, hstage]
    rw [hexec, afterAttempt_eq (s := bump .noAnswers s) (by simpa using ho), bump_eq]
  · have hexec : exec .repeatIntervalExpiry s = .next (arbitrate (setStage .due s)) := by
      show execRepeatIntervalExpiry s = _
      simp only [execRepeatIntervalExpiry, offerStage, ho, Option.map_some, hstage]
    rw [hexec, setStage_eq ho]
  · have hexec : exec (.waitReceived body) s = .next (match answeredOffer s f with
        | some _ => waitAnswer (endFrame s)
        | none => endFrame s) :=
      congrArg Host.Outcome.next (takeAnswer_of_downstream hrun hf hsrc)
    rw [answeredOffer_eq ho href] at hexec
    have hoffer : (endFrame s).handoff.outbound = some o := ho
    refine ⟨fun hstage => ?_, fun hnot => ?_⟩
    · rw [if_neg (by simp [hstage])] at hexec
      have hwait : waitAnswer (endFrame s) = afterAttempt (endFrame s) := by
        simp only [waitAnswer, offerStage, hoffer, Option.map_some, hstage]
      rw [hexec]
      simp only [hwait, afterAttempt_eq hoffer]
      rfl
    · have hwait : waitAnswer (endFrame s) = endFrame s := by
        unfold waitAnswer
        split
        · next m hm =>
          simp only [offerStage, hoffer, Option.map_some, Option.some.injEq] at hm
          exact absurd hm (hnot m)
        · rfl
      rw [hexec, hwait]
      split <;> rfl

/-! ## The reader's input (R31) -/

theorem byteSum_six (m result c1 c0 letter check : Byte) :
    byteSum [m, result, c1, c0, letter, check] = m + result + c1 + c0 + letter + check := by
  simp [byteSum]

theorem readerResult_six (m result c1 c0 letter check : Byte) :
    readerResult [m, result, c1, c0, letter, check]
      = if m + result + c1 + c0 + letter + check ≠ 0 ∨ m ≠ 0xA5 then none
        else if result = 2 then some .noread
        else if result = 1 ∧ validCabin (c1.toNat * 256 + c0.toNat) = true ∧ letter.toNat ≤ 7 then
          some (.read (c1.toNat * 256 + c0.toNat) letter.toNat)
        else none := by
  rw [← byteSum_six]
  rfl

theorem readerMessage_eq {bytes : List Byte} (hrun : s.start.node = .run)
    (hreader : s.start.image.readerFitted = true) :
    exec (.readerMessage bytes) s = .next (bytes.foldl (fun t b => readerByte b t) s) := by
  show Host.Outcome.next _ = _
  rw [if_pos]
  simp [readerFollowed, inRun, hrun, hreader]

/-- Bytes behind the first ones of a message, fewer than six in all. -/
theorem readerBytes_join {p : List Byte} (l : List Byte) (hp : p ≠ []) (hlen : p.length + l.length < 6) :
    l.foldl (fun t b => readerByte b t) (setReader p (some 0) s) = setReader (p ++ l) (some 0) s := by
  induction l generalizing p with
  | nil => rw [List.append_nil]; rfl
  | cons b l ih =>
    have hbyte : readerByte b (setReader p (some 0) s) = setReader (p ++ [b]) (some 0) s := by
      have hbytes : (setReader p (some 0) s).track.readerBytes = p := rfl
      have hshort : (p ++ [b]).length < 6 := by
        simp only [List.length_append, List.length_nil, List.length_cons] at hlen ⊢
        omega
      unfold readerByte
      rw [hbytes]
      cases p with
      | nil => exact absurd rfl hp
      | cons a p => exact if_pos hshort
    have hnext : (p ++ [b]).length + l.length < 6 := by
      simp only [List.length_append, List.length_cons, List.length_nil] at hlen ⊢
      omega
    rw [List.foldl_cons, hbyte, ih (by simp) hnext, List.append_assoc]
    rfl

theorem readerMessage_prefix {l : List Byte} (hempty : s.track.readerBytes = []) (hlen : l.length < 5) :
    (0xA5 :: l : List Byte).foldl (fun t b => readerByte b t) s = setReader (0xA5 :: l) (some 0) s := by
  have hmarker : readerByte 0xA5 s = setReader [0xA5] (some 0) s := by
    rw [readerByte, hempty]
    rfl
  rw [List.foldl_cons, hmarker]
  exact readerBytes_join l (by simp) (by simp; omega)

/-- A whole message of six bytes is judged at its check byte. -/
theorem readerMessage_whole {b0 b1 b2 b3 b4 : Byte} (hempty : s.track.readerBytes = []) :
    ([0xA5, b0, b1, b2, b3, b4] : List Byte).foldl (fun t b => readerByte b t) s
      = match readerResult [0xA5, b0, b1, b2, b3, b4] with
        | some res => takeResult res (setReader [] none s)
        | none => damagedMessage s := by
  have hfive := readerMessage_prefix (l := [b0, b1, b2, b3]) hempty (by simp)
  have hsplit : ([0xA5, b0, b1, b2, b3, b4] : List Byte) = 0xA5 :: [b0, b1, b2, b3] ++ [b4] := rfl
  rw [hsplit, List.foldl_append, hfive]
  rfl

theorem damagedMessage_eq (s : State) : damagedMessage s = { s with
    track := { s.track with readerBytes := [], readerGap := none }
    supervision := raised .unboundReads s.supervision } := bump_eq _ _

theorem takeResult_unbound {res : ReaderResult}
    (h : s.track.table.any (fun x => decide (x.window = .open)) = false) :
    takeResult res (setReader [] none s) = damagedMessage s := by
  have hnone : frontOpenWindow (setReader [] none s) = none := by
    show s.track.table.find? _ = none
    simpa using h
  rw [takeResult, hnone]
  rfl

/-- Settles O27: what the reader's input counts, and what six bytes give. -/
theorem readerInputIsJudged : Obligations.ReaderInputIsJudged := by
  refine ⟨?_, fun m result c1 c0 letter check cabin l => ?_⟩
  · rintro s _ hrun hreader rfl
    have hfollowed : readerFollowed s = true := by simp [readerFollowed, inRun, hrun, hreader]
    refine ⟨fun b0 b1 b2 b3 b4 hempty hfail => ?_, fun l hempty hlen => ?_, fun hbytes => ?_,
      fun b => ?_, fun b hempty hb => ?_⟩
    · rw [readerMessage_eq hrun hreader, readerMessage_whole hempty, ← damagedMessage_eq]
      rcases hfail with hnone | hunbound
      · rw [hnone]
      · split
        · rw [takeResult_unbound hunbound]
        · rfl
    · rw [readerMessage_eq hrun hreader, readerMessage_prefix hempty hlen]
      rfl
    · rw [← damagedMessage_eq]
      exact congrArg Host.Outcome.next (if_pos ⟨hfollowed, hbytes⟩)
    · rw [← damagedMessage_eq]
      exact congrArg Host.Outcome.next (if_pos hfollowed)
    · have hbyte : readerByte b s = bump .unboundReads s := by
        rw [readerByte, hempty]
        exact if_neg hb
      rw [← bump_eq, ← hbyte]
      exact congrArg Host.Outcome.next (if_pos hfollowed)
  · rw [readerResult_six]
    refine ⟨?_, ?_⟩
    · split
      · next hbad => simp; tauto
      · next hgood => 
        push Not at hgood
        split
        · next hres => exact ⟨fun _ => ⟨hgood.2, hgood.1, hres⟩, fun _ => rfl⟩
        · next hres =>
          refine ⟨fun h => ?_, fun ⟨_, _, h⟩ => absurd h hres⟩
          split at h <;> simp at h
    · split
      · next hbad => simp; tauto
      · next hgood =>
        push Not at hgood
        split
        · next hres => simp [hres]
        · next hres =>
          split
          · next hread =>
            obtain ⟨hone, hcabin, hletter⟩ := hread
            have hrange := validCabin_iff.mp hcabin
            simp only [Option.some.injEq, ReaderResult.read.injEq]
            constructor
            · rintro ⟨rfl, rfl⟩
              exact ⟨hgood.2, hgood.1, hone, rfl, hrange.1, hrange.2, rfl, hletter⟩
            · rintro ⟨-, -, -, rfl, -, -, rfl, -⟩
              exact ⟨rfl, rfl⟩
          · next hread =>
            simp only [reduceCtorEq, false_iff]
            rintro ⟨-, -, hone, rfl, hlow, hhigh, rfl, hletter⟩
            exact hread ⟨hone, validCabin_iff.mpr ⟨hlow, hhigh⟩, hletter⟩

/-! ## The resolution of a record (R53 to R55) -/

theorem strayVerdict_eq {stray : Verdict}
    (hfirst : ∀ k, (s.start.image.outlets.get k).role = .stray →
      (∀ j < k, (s.start.image.outlets.get j).role ≠ .stray) → stray = .stray k)
    (hnone : (∀ k, (s.start.image.outlets.get k).role ≠ .stray) → stray = .pass) :
    strayVerdict s = stray := by
  unfold strayVerdict
  split
  · next hfind =>
    rw [List.find?_eq_none] at hfind
    refine (hnone fun k => ?_).symm
    have hk : k ∈ ([0, 1, 2, 3] : List OutletNo) := by revert k; decide
    exact of_decide_eq_false (Bool.eq_false_iff.mpr (hfind k hk))
  · next k hfind =>
    obtain ⟨hrole, before, after, hsplit, hbefore⟩ := List.find?_eq_some_iff_append.mp hfind
    refine (hfirst k (of_decide_eq_true hrole) fun j hj => ?_).symm
    have hmem : j ∈ before := by
      have hsorted : (before ++ k :: after).Pairwise (· < ·) := by rw [← hsplit]; decide
      have hall : j ∈ before ++ k :: after := by
        rw [← hsplit]
        clear hj
        revert j
        decide
      rcases List.mem_append.mp hall with hbef | haft
      · exact hbef
      · rcases List.mem_cons.mp haft with rfl | hlate
        · exact absurd hj (lt_irrefl _)
        · have := List.rel_of_pairwise_cons (List.pairwise_append.mp hsorted).2.1 hlate
          exact absurd hj (lt_asymm this)
    have hnot : ¬(outletImage s j).role = .stray := by simpa using hbefore j hmem
    exact hnot

/-- Settles O29, by the mark, the tag and the exception of the record. -/
theorem resolutionGivesVerdict : Obligations.ResolutionGivesVerdict := by
  intro s r stray hfirst hnone
  have hverdict := strayVerdict_eq hfirst hnone
  refine ⟨fun hmark => ?_, fun hmark htag => ?_, fun g hmark htag => ⟨fun kind hexc => ⟨?_, ?_, ?_⟩,
    fun hexc => ?_⟩⟩
  · rw [resolve, if_pos (Option.isSome_iff_ne_none.mpr hmark), hverdict]
  · simp only [resolve, hmark, htag, Option.isSome_none, Bool.false_eq_true, if_false, hverdict]
  · rintro rfl
    simp only [resolve, hmark, htag, hexc, Option.isSome_none, Bool.false_eq_true, if_false, hverdict]
  · rintro rfl
    simp only [resolve, hmark, htag, hexc, Option.isSome_none, Bool.false_eq_true, if_false, hverdict]
  · rintro target rfl
    simp only [resolve, hmark, htag, hexc, Option.isSome_none, Bool.false_eq_true, if_false]
  · simp only [resolve, hmark, htag, hexc, Option.isSome_none, Bool.false_eq_true, if_false]

end

end Sys2Proof.Machine

/-! # Marks and requests: what they leave in the collections and the request queue (R17, R34, R58) -/

namespace Sys2Proof.Machine

section
variable {s t u : State} {ref : BagRef}

/-! ## Lists of records -/

theorem updateIn_congr {l : List Record} {f g : Record → Record}
    (h : ∀ x ∈ l, x.ref = ref → f x = g x) : updateIn l ref f = updateIn l ref g := by
  refine List.map_congr_left fun x hx => ?_
  by_cases hr : x.ref = ref
  · rw [if_pos hr, if_pos hr, h x hx hr]
  · rw [if_neg hr, if_neg hr]

theorem updateIn_fixed {l : List Record} {f : Record → Record} (h : ∀ x ∈ l, x.ref = ref → f x = x) :
    updateIn l ref f = l := by
  rw [updateIn_congr h]
  simp [updateIn]

theorem findIn_map (l : List Record) (g : Record → Record) (hg : ∀ x, (g x).ref = x.ref) (ref : BagRef) :
    findIn (l.map g) ref = (findIn l ref).map g := by
  rw [findIn, findIn, List.find?_map]
  simp [hg]

theorem findIn_append (l m : List Record) (ref : BagRef) :
    findIn (l ++ m) ref = (findIn l ref).or (findIn m ref) := List.find?_append

theorem findIn_filter_other (l : List Record) {ref other : BagRef} (h : other ≠ ref) :
    findIn (l.filter fun x => decide (x.ref ≠ ref)) other = findIn l other := by
  rw [findIn, List.find?_filter, findIn]
  congr 1
  funext x
  by_cases hx : x.ref = other
  · simp [hx, h]
  · simp [hx]

theorem findIn_filter_same (l : List Record) (ref : BagRef) :
    findIn (l.filter fun x => decide (x.ref ≠ ref)) ref = none := by
  rw [findIn, List.find?_eq_none]
  intro x hx
  simpa using (List.mem_filter.mp hx).2

theorem filter_refs_absent {l : List Record} (h : findIn l ref = none) :
    (l.filter fun x => decide (x.ref ≠ ref)) = l := by
  rw [List.filter_eq_self]
  intro x hx
  simp only [decide_eq_true_eq]
  rintro rfl
  exact findIn_eq_none.mp h (List.mem_map_of_mem hx)

/-- The one record of a bag ref (R19). -/
theorem eq_of_heldRecord {x r : Record} (hrefs : RefsHeldOnce s) (hr : heldRecord s ref = some r)
    (hx : x ∈ heldRecords s) (hxr : x.ref = ref) : x = r := by
  have h := heldRecord_of_mem hrefs hx
  rw [hxr, hr] at h
  exact (Option.some.inj h).symm

theorem mem_table_held {x : Record} (h : x ∈ s.track.table) : x ∈ heldRecords s :=
  mem_heldRecords.mpr (.inl h)

theorem mem_pending_held {x : Record} (h : x ∈ s.handoff.pendingOffers) : x ∈ heldRecords s :=
  mem_heldRecords.mpr (.inr (.inl h))

theorem mem_expected_held {x : Record} (h : x ∈ s.handoff.expected) : x ∈ heldRecords s :=
  mem_heldRecords.mpr (.inr (.inr h))

theorem inTable_of_mem {x : Record} (hrefs : RefsHeldOnce s) (hx : x ∈ s.track.table) :
    inTable s x.ref = some x := findIn_of_mem (refsHeldOnce_iff.mp hrefs).1 hx

theorem inExpected_of_mem {x : Record} (hrefs : RefsHeldOnce s) (hx : x ∈ s.handoff.expected) :
    inExpected s x.ref = some x := findIn_of_mem (refsHeldOnce_iff.mp hrefs).2.2.1 hx

theorem inPendingOffers_of_mem {x : Record} (hrefs : RefsHeldOnce s) (hx : x ∈ s.handoff.pendingOffers) :
    inPendingOffers s x.ref = some x := findIn_of_mem (refsHeldOnce_iff.mp hrefs).2.1 hx

theorem heldRecords_refs (s : State) : (heldRecords s).map (·.ref)
    = s.track.table.map (·.ref) ++ s.handoff.pendingOffers.map (·.ref)
      ++ s.handoff.expected.map (·.ref) := by
  simp [heldRecords]

theorem SameRefs.refsHeldOnce (h : SameRefs s t) (hs : RefsHeldOnce s) : RefsHeldOnce t := by
  rw [RefsHeldOnce, heldRecords_refs, h.1, h.2.1, h.2.2, ← heldRecords_refs]
  exact hs

/-! ## A request -/

/-- What a change of the Resolution Unit by new requests keeps: the records held, the exceptions, a
resolution in service, and each waiting request of a held record, which an idle unit may have taken. -/
structure KeepsRequests (s t : State) : Prop where
  refs : SameRefs s t
  exceptions : t.resolution.exceptions = s.resolution.exceptions
  entries : t.resolution.cabinEntries = s.resolution.cabinEntries
  busy : s.resolution.service ≠ none → t.resolution.service = s.resolution.service
  waiting : ∀ ref ∈ s.resolution.requests, (heldRecord s ref).isSome = true →
    ref ∈ t.resolution.requests
      ∨ s.resolution.service = none ∧ ∃ v, t.resolution.service = some v ∧ v.owner = some ref

theorem KeepsRequests.of_same (hrefs : SameRefs s t) (h : t.resolution = s.resolution) :
    KeepsRequests s t := by
  refine ⟨hrefs, ?_, ?_, fun _ => ?_, fun ref hr _ => .inl ?_⟩
  · rw [h]
  · rw [h]
  · rw [h]
  · rwa [h]

theorem KeepsRequests.refl (s : State) : KeepsRequests s s := .of_same (sameRefs_refl s) rfl

theorem KeepsRequests.trans (h : KeepsRequests s t) (k : KeepsRequests t u) : KeepsRequests s u := by
  refine ⟨h.refs.trans k.refs, k.exceptions.trans h.exceptions, k.entries.trans h.entries,
    fun hbusy => ?_, fun ref hr hheld => ?_⟩
  · have hkept := h.busy hbusy
    rw [k.busy (by rwa [hkept]), hkept]
  · rcases h.waiting ref hr hheld with hwaits | ⟨hidle, v, hv, howner⟩
    · rcases k.waiting ref hwaits (by rwa [h.refs.heldRecord_isSome]) with hstill | ⟨hidle, hserved⟩
      · exact .inl hstill
      · refine .inr ⟨?_, hserved⟩
        by_contra hbusy
        rw [h.busy hbusy] at hidle
        exact hbusy hidle
    · exact .inr ⟨hidle, v, by rw [k.busy (by rw [hv]; simp), hv], howner⟩

theorem startResolution_of_busy (h : s.resolution.service ≠ none) : startResolution s = s := by
  unfold startResolution
  split
  · next hnone _ => exact absurd hnone h
  · rfl

theorem startResolution_of_idle {rest : List BagRef} (hidle : s.resolution.service = none)
    (hnext : s.resolution.requests = ref :: rest) : startResolution s = { s with
      resolution := { s.resolution with
        requests := rest
        service := (heldRecord s ref).map fun r =>
          ⟨some ref, (resolve s r).1, (resolve s r).2⟩ } } := by
  unfold startResolution
  rw [hidle, hnext]
  rfl

theorem startResolution_of_quiet (hnone : s.resolution.requests = []) : startResolution s = s := by
  unfold startResolution
  split
  · next hnext => rw [hnone] at hnext; cases hnext
  · rfl

theorem keepsRequests_startResolution (s : State) : KeepsRequests s (startResolution s) := by
  by_cases hbusy : s.resolution.service = none
  · cases hnext : s.resolution.requests with
    | nil =>
      rw [startResolution_of_quiet hnext]
      exact .refl s
    | cons head rest =>
      rw [startResolution_of_idle hbusy hnext]
      refine ⟨sameRefs_of_eq rfl rfl, rfl, rfl, fun h => absurd hbusy h, fun ref hr hheld => ?_⟩
      rw [hnext] at hr
      rcases List.mem_cons.mp hr with rfl | hrest
      · obtain ⟨r, hr⟩ := Option.isSome_iff_exists.mp hheld
        exact .inr ⟨hbusy, _, by rw [hr]; rfl, rfl⟩
      · exact .inl hrest
  · rw [startResolution_of_busy hbusy]
    exact .refl s

theorem raiseRequest_of_expected (h : (inExpected s ref).isSome = true) : raiseRequest ref s
    = updateRecord ref (fun r => { r with resolutionDue := true, verdict := .unresolved }) s :=
  if_pos h

theorem raiseRequest_of_waiting (h : inExpected s ref = none) (hr : ref ∈ s.resolution.requests) :
    raiseRequest ref s = s := by
  rw [raiseRequest, h, if_neg (by simp), if_pos hr]

theorem raiseRequest_of_new (h : inExpected s ref = none) (hr : ref ∉ s.resolution.requests) :
    raiseRequest ref s
      = startResolution (s.mapResolution fun u => { u with requests := u.requests ++ [ref] }) := by
  rw [raiseRequest, h, if_neg (by simp), if_neg hr]

theorem keepsRequests_updateRecord (ref : BagRef) {f : Record → Record} (hf : ∀ r, (f r).ref = r.ref)
    (s : State) : KeepsRequests s (updateRecord ref f s) :=
  .of_same (sameRefs_updateRecord ref hf) rfl

theorem keepsRequests_append (ref : BagRef) (s : State) : KeepsRequests s
    (s.mapResolution fun u => { u with requests := u.requests ++ [ref] }) :=
  ⟨sameRefs_of_eq rfl rfl, rfl, rfl, fun _ => rfl, fun _ hr _ =>
    .inl (List.mem_append_left _ hr)⟩

theorem keepsRequests_raiseRequest (ref : BagRef) (s : State) :
    KeepsRequests s (raiseRequest ref s) := by
  cases hexp : inExpected s ref with
  | some r =>
    rw [raiseRequest_of_expected (by simp [hexp])]
    exact keepsRequests_updateRecord ref (by intro _; rfl) s
  | none =>
    by_cases hr : ref ∈ s.resolution.requests
    · rw [raiseRequest_of_waiting hexp hr]
      exact .refl s
    · rw [raiseRequest_of_new hexp hr]
      exact (keepsRequests_append ref s).trans (keepsRequests_startResolution _)

/-- A request that was raised: it waits, or the unit serves it (R52, R58). -/
theorem requested_raiseRequest (hexp : inExpected s ref = none)
    (hheld : (heldRecord s ref).isSome = true) : Requested s (raiseRequest ref s) ref := by
  by_cases hr : ref ∈ s.resolution.requests
  · rw [raiseRequest_of_waiting hexp hr]
    exact ⟨fun _ => hr, .inl hr⟩
  · rw [raiseRequest_of_new hexp hr]
    have hwaits := (keepsRequests_startResolution
      (s.mapResolution fun u => { u with requests := u.requests ++ [ref] })).waiting ref
      (List.mem_append_right _ List.mem_cons_self) hheld
    refine ⟨fun hbusy => ?_, hwaits.imp id And.right⟩
    rcases hwaits with h | ⟨hidle, -⟩
    · exact h
    · exact absurd hidle hbusy

/-- A raised request stays raised while further requests come. -/
theorem Requested.kept (h : Requested s t ref) (hbusy : s.resolution.service ≠ none →
      t.resolution.service ≠ none) (hheld : (heldRecord t ref).isSome = true)
    (k : KeepsRequests t u) : Requested s u ref := by
  refine ⟨fun hs => ?_, ?_⟩
  · rcases k.waiting ref (h.1 hs) hheld with hr | ⟨hidle, -⟩
    · exact hr
    · exact absurd hidle (hbusy hs)
  · rcases h.2 with hr | ⟨v, hv, howner⟩
    · exact (k.waiting ref hr hheld).imp id And.right
    · exact .inr ⟨v, by rw [k.busy (by rw [hv]; simp), hv], howner⟩

theorem KeepsRequests.stays_busy (h : KeepsRequests s t) (hs : s.resolution.service ≠ none) :
    t.resolution.service ≠ none := by
  rw [h.busy hs]
  exact hs

/-- A request raised on the way from `s` to `u`. -/
theorem requested_between {t' : State} (h : KeepsRequests s t) (hexp : inExpected t ref = none)
    (hheld : (heldRecord t ref).isSome = true) (k : KeepsRequests (raiseRequest ref t) t') :
    Requested s t' ref := by
  have hraised := requested_raiseRequest hexp hheld
  have hkeeps := keepsRequests_raiseRequest ref t
  have hs : Requested s (raiseRequest ref t) ref :=
    ⟨fun hbusy => hraised.1 (h.stays_busy hbusy), hraised.2⟩
  exact hs.kept (fun hbusy => hkeeps.stays_busy (h.stays_busy hbusy))
    (by rwa [hkeeps.refs.heldRecord_isSome]) k

/-- A request that was raised on a state with the Resolution Unit of `s`. -/
theorem Requested.congr (h : Requested t u ref) (hres : t.resolution.service = s.resolution.service) :
    Requested s u ref := by
  rwa [Requested, ← hres]

/-! ## A mark -/

/-- A record marked stray-bound with a cause; one already stray-bound keeps the cause it has (R17). -/
def marked (cause : StrayCause) (x : Record) : Record :=
  { x with stray := if x.stray = none then some cause else x.stray }

/-- A record of the expected list so marked; where the mark is new its resolution becomes due (R59). -/
def markedDue (cause : StrayCause) (x : Record) : Record :=
  if x.stray = none then
    { x with stray := some cause, resolutionDue := true, verdict := .unresolved }
  else x

theorem marked_duplicate (x : Record) : marked .duplicate x = asDuplicate x := rfl

theorem markedDue_duplicate (x : Record) : markedDue .duplicate x = asDuplicateExpected x := rfl

@[simp] theorem marked_ref (cause : StrayCause) (x : Record) : (marked cause x).ref = x.ref := rfl

@[simp] theorem marked_tag (cause : StrayCause) (x : Record) : (marked cause x).tag = x.tag := rfl

@[simp] theorem marked_state (cause : StrayCause) (x : Record) : (marked cause x).state = x.state := rfl

@[simp] theorem markedDue_keeps (cause : StrayCause) (x : Record) :
    (markedDue cause x).ref = x.ref ∧ (markedDue cause x).tag = x.tag
      ∧ (markedDue cause x).state = x.state := by
  unfold markedDue
  split <;> exact ⟨rfl, rfl, rfl⟩

theorem marked_of_stray {cause : StrayCause} {x : Record} (h : x.stray ≠ none) : marked cause x = x := by
  rw [marked, if_neg h]

theorem marked_of_none {cause : StrayCause} {x : Record} (h : x.stray = none) :
    marked cause x = { x with stray := some cause } := by
  rw [marked, if_pos h]

theorem markedDue_of_stray {cause : StrayCause} {x : Record} (h : x.stray ≠ none) :
    markedDue cause x = x := if_neg h

theorem markedDue_of_none {cause : StrayCause} {x : Record} (h : x.stray = none) : markedDue cause x
    = { x with stray := some cause, resolutionDue := true, verdict := .unresolved } := if_pos h

theorem marked_marked (c d : StrayCause) (x : Record) : marked d (marked c x) = marked c x := by
  apply marked_of_stray
  by_cases h : x.stray = none
  · simp [marked, h]
  · simp [marked, h]

theorem markedDue_markedDue (c d : StrayCause) (x : Record) :
    markedDue d (markedDue c x) = markedDue c x := by
  apply markedDue_of_stray
  by_cases h : x.stray = none
  · rw [markedDue_of_none h]
    simp
  · rwa [markedDue_of_stray h]

theorem markStray_of_stray {cause : StrayCause} {r : Record} (hr : heldRecord s ref = some r)
    (h : r.stray ≠ none) : markStray cause ref s = s := by
  rw [markStray, hr]
  exact if_pos (Option.isSome_iff_ne_none.mpr h)

theorem markStray_of_unmarked {cause : StrayCause} {r : Record} (hr : heldRecord s ref = some r)
    (h : r.stray = none) : markStray cause ref s
      = if markRaisesRequest r.state
        then raiseRequest ref (updateRecord ref (fun r => { r with stray := some cause }) s)
        else updateRecord ref (fun r => { r with stray := some cause }) s := by
  rw [markStray, hr]
  exact if_neg (by simp [h])

theorem keepsRequests_markStray (cause : StrayCause) (ref : BagRef) (s : State) :
    KeepsRequests s (markStray cause ref s) := by
  cases hr : heldRecord s ref with
  | none =>
    rw [markStray, hr]
    exact .refl s
  | some r =>
    by_cases hstray : r.stray = none
    · rw [markStray_of_unmarked hr hstray]
      have hmark := keepsRequests_updateRecord ref (f := fun r => { r with stray := some cause })
        (fun _ => rfl) s
      split
      · exact hmark.trans (keepsRequests_raiseRequest ref _)
      · exact hmark
    · rw [markStray_of_stray hr hstray]
      exact .refl s

theorem keepsRequests_lapCheck (ref : BagRef) (s : State) : KeepsRequests s (lapCheck ref s) := by
  unfold lapCheck
  split
  · exact .refl s
  · split
    · exact keepsRequests_markStray _ _ _
    · exact .refl s

theorem keepsRequests_markAll (cause : StrayCause) (refs : List BagRef) (s : State) :
    KeepsRequests s (refs.foldl (fun t x => markStray cause x t) s) := by
  induction refs generalizing s with
  | nil => exact .refl s
  | cons ref refs ih => exact (keepsRequests_markStray cause ref s).trans (ih _)

theorem keepsRequests_duplicateCheck (ref : BagRef) (s : State) :
    KeepsRequests s (duplicateCheck ref s) := by
  unfold duplicateCheck
  split
  · exact .refl s
  · split
    · exact .refl s
    · exact (keepsRequests_markAll _ _ s).trans (.of_same (sameRefs_bump _ _) (by simp))

/-- The collections with the record of a bag ref changed outside the expected list (R21). -/
theorem updateRecord_of_not_expected {f : Record → Record} (h : inExpected s ref = none) :
    updateRecord ref f s = { s with
      track := { s.track with table := updateIn s.track.table ref f }
      handoff := { s.handoff with
        pendingOffers := updateIn s.handoff.pendingOffers ref f } } := by
  rw [updateRecord, updateIn_absent f (findIn_eq_none.mp h)]

/-- A mark on a record outside the expected list. -/
theorem markStray_outside_expected {cause : StrayCause} {r : Record} (hrefs : RefsHeldOnce s)
    (hr : heldRecord s ref = some r) (hexp : inExpected s ref = none) :
    markStray cause ref s = { s with
      track := { s.track with table := updateIn s.track.table ref (marked cause) }
      handoff := { s.handoff with
        pendingOffers := updateIn s.handoff.pendingOffers ref (marked cause) }
      resolution := (markStray cause ref s).resolution } := by
  have hone : ∀ x ∈ heldRecords s, x.ref = ref → x = r := fun x hx hxr =>
    eq_of_heldRecord hrefs hr hx hxr
  by_cases hstray : r.stray = none
  · have hfun : ∀ x ∈ heldRecords s, x.ref = ref →
        { x with stray := some cause } = marked cause x := by
      intro x hx hxr
      rw [hone x hx hxr, marked_of_none hstray]
    have hupdate : updateRecord ref (fun r => { r with stray := some cause }) s = { s with
        track := { s.track with table := updateIn s.track.table ref (marked cause) }
        handoff := { s.handoff with
          pendingOffers := updateIn s.handoff.pendingOffers ref (marked cause) } } := by
      rw [updateRecord_of_not_expected hexp,
        updateIn_congr fun x hx => hfun x (mem_table_held hx),
        updateIn_congr fun x hx => hfun x (mem_pending_held hx)]
    have hexp' : inExpected (updateRecord ref (fun r => { r with stray := some cause }) s) ref = none := by
      rw [inExpected_updateRecord_same (by intro _; rfl), hexp]
      rfl
    rw [markStray_of_unmarked hr hstray]
    split
    · rw [raiseRequest_eq_resolution hexp', hupdate]
    · rw [hupdate]
  · have hfixed : ∀ x ∈ heldRecords s, x.ref = ref → marked cause x = x := by
      intro x hx hxr
      rw [hone x hx hxr, marked_of_stray hstray]
    rw [markStray_of_stray hr hstray, updateIn_fixed fun x hx => hfixed x (mem_table_held hx),
      updateIn_fixed fun x hx => hfixed x (mem_pending_held hx)]

/-- A mark on a record of the expected list. -/
theorem markStray_in_expected {cause : StrayCause} {r : Record} (hrefs : RefsHeldOnce s)
    (hr : inExpected s ref = some r) (hstate : r.state = .expected) :
    markStray cause ref s = { s with
      handoff := { s.handoff with
        expected := updateIn s.handoff.expected ref (markedDue cause) } } := by
  obtain ⟨htab, hpend⟩ := not_elsewhere_of_inExpected hrefs (by rw [hr]; rfl)
  have hheld : heldRecord s ref = some r := by
    rw [heldRecord, htab, hpend]
    exact hr
  have hone : ∀ x ∈ s.handoff.expected, x.ref = ref → x = r := fun x hx hxr =>
    eq_of_heldRecord hrefs hheld (mem_expected_held hx) hxr
  by_cases hstray : r.stray = none
  · have hexp' : (inExpected (updateRecord ref (fun r => { r with stray := some cause }) s) ref).isSome
        = true := by
      rw [inExpected_isSome_updateRecord (by intro _; rfl), hr]
      rfl
    rw [markStray_of_unmarked hheld hstray, hstate, markRaisesRequest, if_pos rfl,
      raiseRequest_of_expected hexp', updateRecord_updateRecord _ _ _ _ (by intro _; rfl), updateRecord,
      updateIn_absent _ (findIn_eq_none.mp htab), updateIn_absent _ (findIn_eq_none.mp hpend)]
    have hcongr := updateIn_congr (ref := ref) (l := s.handoff.expected)
      (f := fun r => { r with stray := some cause, resolutionDue := true, verdict := .unresolved })
      (g := markedDue cause) fun x hx hxr => by rw [hone x hx hxr, markedDue_of_none hstray]
    rw [hcongr]
  · have hfixed : updateIn s.handoff.expected ref (markedDue cause) = s.handoff.expected :=
      updateIn_fixed fun x hx hxr => by rw [hone x hx hxr, markedDue_of_stray hstray]
    rw [markStray_of_stray hheld hstray, hfixed]

end

end Sys2Proof.Machine

/-! # The duplicate check and the tag reader (sections 2.4 and 3.4) -/

namespace Sys2Proof.Machine

section
variable {s t u : State} {ref : BagRef} {r : Record}

/-! ## Records of the track table -/

theorem updateRecord_of_inTable {f : Record → Record} (hrefs : RefsHeldOnce s)
    (h : (inTable s ref).isSome = true) : updateRecord ref f s = { s with
      track := { s.track with table := updateIn s.track.table ref f } } := by
  obtain ⟨hpend, hexp⟩ := not_inbound_of_inTable hrefs h
  rw [updateRecord_of_not_expected hexp, updateIn_absent f (findIn_eq_none.mp hpend)]

theorem markStray_of_inTable {cause : StrayCause} (hrefs : RefsHeldOnce s)
    (h : inTable s ref = some r) : markStray cause ref s = { s with
      track := { s.track with table := updateIn s.track.table ref (marked cause) }
      resolution := (markStray cause ref s).resolution } := by
  obtain ⟨hpend, hexp⟩ := not_inbound_of_inTable hrefs (by rw [h]; rfl)
  have heq := markStray_outside_expected (cause := cause) hrefs (heldRecord_of_inTable h) hexp
  rwa [updateIn_absent _ (findIn_eq_none.mp hpend)] at heq

/-- A change of a record of the track table, and a mark behind it. -/
theorem markStray_updateRecord_inTable {cause : StrayCause} {f : Record → Record}
    (hf : ∀ x, (f x).ref = x.ref) (hrefs : RefsHeldOnce s) (h : inTable s ref = some r) :
    markStray cause ref (updateRecord ref f s) = { s with
      track := { s.track with table := updateIn s.track.table ref fun x => marked cause (f x) }
      resolution := (markStray cause ref (updateRecord ref f s)).resolution } := by
  have hupdate := updateRecord_of_inTable (f := f) hrefs (ref := ref) (by rw [h]; rfl)
  have hin : inTable (updateRecord ref f s) ref = some (f r) := by
    rw [inTable_updateRecord_same hf, h]
    rfl
  have hmark := markStray_of_inTable (cause := cause)
    ((sameRefs_updateRecord ref hf).refsHeldOnce hrefs) hin
  obtain ⟨u, hu⟩ : ∃ u, u = (markStray cause ref (updateRecord ref f s)).resolution := ⟨_, rfl⟩
  rw [← hu] at hmark ⊢
  rw [hmark, updateRecord_table, updateIn_updateIn _ _ _ _ hf, hupdate]

theorem markStray_of_inPendingOffers {cause : StrayCause} (hrefs : RefsHeldOnce s)
    (h : inPendingOffers s ref = some r) : markStray cause ref s = { s with
      handoff := { s.handoff with
        pendingOffers := updateIn s.handoff.pendingOffers ref (marked cause) }
      resolution := (markStray cause ref s).resolution } := by
  obtain ⟨htab, hexp⟩ := not_elsewhere_of_inPendingOffers hrefs (by rw [h]; rfl)
  have heq := markStray_outside_expected (cause := cause) hrefs
    (heldRecord_of_inPendingOffers h htab) hexp
  rwa [updateIn_absent _ (findIn_eq_none.mp htab)] at heq

/-- A mark on a record of the track table or the expected list. -/
theorem markStray_of_table_or_expected {cause : StrayCause} (hrefs : RefsHeldOnce s)
    (hstates : ∀ x ∈ s.handoff.expected, x.state = .expected)
    (h : (inTable s ref).isSome = true ∨ (inExpected s ref).isSome = true) :
    markStray cause ref s = { s with
      track := { s.track with table := updateIn s.track.table ref (marked cause) }
      handoff := { s.handoff with expected := updateIn s.handoff.expected ref (markedDue cause) }
      resolution := (markStray cause ref s).resolution } := by
  rcases h with htab | hexp
  · obtain ⟨r, hr⟩ := Option.isSome_iff_exists.mp htab
    rw [markStray_of_inTable hrefs hr,
      updateIn_absent _ (findIn_eq_none.mp (not_inbound_of_inTable hrefs htab).2)]
  · obtain ⟨r, hr⟩ := Option.isSome_iff_exists.mp hexp
    rw [markStray_in_expected hrefs hr (hstates r (inExpected_mem hr)),
      updateIn_absent _ (findIn_eq_none.mp (not_elsewhere_of_inExpected hrefs hexp).1)]

/-! ## Several marks -/

/-- A record marked where its bag ref is named. -/
def markedIf (refs : List BagRef) (mark : Record → Record) (x : Record) : Record :=
  if x.ref ∈ refs then mark x else x

theorem markedIf_ref {refs : List BagRef} {mark : Record → Record} (hmark : ∀ x, (mark x).ref = x.ref)
    (x : Record) : (markedIf refs mark x).ref = x.ref := by
  unfold markedIf
  split
  · exact hmark x
  · rfl

theorem map_markedIf_updateIn {refs : List BagRef} {mark : Record → Record}
    (href : ∀ x, (mark x).ref = x.ref) (htwice : ∀ x, mark (mark x) = mark x) (l : List Record) :
    (updateIn l ref mark).map (markedIf refs mark) = l.map (markedIf (ref :: refs) mark) := by
  rw [updateIn, List.map_map]
  refine List.map_congr_left fun x _ => ?_
  show markedIf refs mark (if x.ref = ref then mark x else x) = markedIf (ref :: refs) mark x
  by_cases hx : x.ref = ref
  · rw [if_pos hx, markedIf, markedIf, href, if_pos (List.mem_cons.mpr (.inl hx)), htwice, ite_self]
  · rw [if_neg hx, markedIf, markedIf]
    simp [hx]

theorem markAll_eq {cause : StrayCause} {refs : List BagRef} (hrefs : RefsHeldOnce s)
    (hstates : ∀ x ∈ s.handoff.expected, x.state = .expected)
    (h : ∀ ref ∈ refs, (inTable s ref).isSome = true ∨ (inExpected s ref).isSome = true) :
    refs.foldl (fun t x => markStray cause x t) s = { s with
      track := { s.track with table := s.track.table.map (markedIf refs (marked cause)) }
      handoff := { s.handoff with
        expected := s.handoff.expected.map (markedIf refs (markedDue cause)) }
      resolution := (refs.foldl (fun t x => markStray cause x t) s).resolution } := by
  induction refs generalizing s with
  | nil =>
    have hid : ∀ mark, markedIf [] mark = id := fun mark => rfl
    simp [hid]
  | cons ref refs ih =>
    have hone := markStray_of_table_or_expected (cause := cause) hrefs hstates
      (h ref List.mem_cons_self)
    have hsame := sameRefs_markStray cause ref s
    have hstates' : ∀ x ∈ (markStray cause ref s).handoff.expected, x.state = .expected := by
      rw [hone]
      intro x hx
      obtain ⟨y, hy, rfl⟩ := mem_updateIn.mp hx
      split
      · rw [(markedDue_keeps cause y).2.2]
        exact hstates y hy
      · exact hstates y hy
    have hrest := ih (s := markStray cause ref s) (hsame.refsHeldOnce hrefs) hstates' fun x hx => by
      rw [hsame.inTable_isSome, hsame.inExpected_isSome]
      exact h x (List.mem_cons_of_mem _ hx)
    have htable : (markStray cause ref s).track.table = updateIn s.track.table ref (marked cause) :=
      congrArg (·.track.table) hone
    have hexpected : (markStray cause ref s).handoff.expected
        = updateIn s.handoff.expected ref (markedDue cause) := congrArg (·.handoff.expected) hone
    obtain ⟨v, hv⟩ : ∃ v, v = (markStray cause ref s).resolution := ⟨_, rfl⟩
    obtain ⟨w, hw⟩ : ∃ w, w
        = (refs.foldl (fun t x => markStray cause x t) (markStray cause ref s)).resolution := ⟨_, rfl⟩
    rw [← hv] at hone
    rw [← hw] at hrest
    rw [List.foldl_cons, ← hw, hrest, htable, hexpected, map_markedIf_updateIn (mark := marked cause)
      (fun _ => rfl) (marked_marked cause cause), map_markedIf_updateIn (mark := markedDue cause)
      (fun x => (markedDue_keeps cause x).1) (markedDue_markedDue cause cause)]
    rw [hone]

/-! ## The duplicate check (R34) -/

theorem sameTag_eq_twin (tag : Option Tag) (x : Record) : sameTag x.tag tag = twin tag x := by
  unfold sameTag twin
  cases x.tag with
  | none => cases tag <;> simp
  | some a =>
    cases tag with
    | none => simp
    | some b => simp [Prod.ext_iff]

/-- Another record with a record's cabin and letter (R34). -/
def duplicateOf (r x : Record) : Bool := decide (x.ref ≠ r.ref) && twin r.tag x

/-- A record as the duplicate check of `r` leaves it: each duplicate is marked, and `r` where there is
one. -/
def checked (r : Record) (found : Bool) (mark : Record → Record) (x : Record) : Record :=
  if duplicateOf r x || (decide (x.ref = r.ref) && found) then mark x else x

/-- Does the duplicate check of a record find another? -/
def foundDuplicate (s : State) (r : Record) : Bool :=
  (s.track.table ++ s.handoff.expected).any (duplicateOf r)

theorem duplicatesOf_eq (s : State) (r : Record) : duplicatesOf s r
    = ((s.track.table ++ s.handoff.expected).filter (duplicateOf r)).map (·.ref) := by
  unfold duplicatesOf duplicateOf
  congr 2
  funext x
  rw [sameTag_eq_twin]

theorem duplicatesOf_eq_nil_iff : duplicatesOf s r = [] ↔ foundDuplicate s r = false := by
  rw [duplicatesOf_eq, List.map_eq_nil_iff, List.filter_eq_nil_iff, foundDuplicate,
    List.any_eq_false]

theorem markedIf_duplicates {mark : Record → Record} {x : Record} (hrefs : RefsHeldOnce s)
    (hfound : foundDuplicate s r = true) (hx : x ∈ s.track.table ++ s.handoff.expected) :
    markedIf (r.ref :: duplicatesOf s r) mark x = checked r (foundDuplicate s r) mark x := by
  have hmem : x.ref ∈ duplicatesOf s r ↔ duplicateOf r x = true := by
    rw [duplicatesOf_eq, List.mem_map]
    constructor
    · rintro ⟨y, hy, hyx⟩
      obtain ⟨hyin, hdup⟩ := List.mem_filter.mp hy
      have hheld : ∀ z, z ∈ s.track.table ++ s.handoff.expected → z ∈ heldRecords s := fun z hz =>
        (List.mem_append.mp hz).elim mem_table_held mem_expected_held
      have : x = y := eq_of_heldRecord hrefs (heldRecord_of_mem hrefs (hheld y hyin)) (hheld x hx)
        hyx.symm
      rwa [this]
    · exact fun hdup => ⟨x, List.mem_filter.mpr ⟨hx, hdup⟩, rfl⟩
  unfold markedIf checked
  congr 1
  rw [List.mem_cons, hmem, hfound, Bool.and_true, Bool.or_eq_true, decide_eq_true_eq]
  exact propext or_comm

theorem checked_of_unfound {mark : Record → Record} {x : Record}
    (hnone : foundDuplicate s r = false) (hx : x ∈ s.track.table ++ s.handoff.expected) :
    checked r (foundDuplicate s r) mark x = x := by
  have hdup : duplicateOf r x = false := by simpa using List.any_eq_false.mp hnone x hx
  rw [checked, hdup, hnone, Bool.and_false]
  rfl

/-- The duplicate check of a record of the track table or the expected list. -/
theorem duplicateCheck_eq (hrefs : RefsHeldOnce s)
    (hstates : ∀ x ∈ s.handoff.expected, x.state = .expected) (hr : heldRecord s r.ref = some r)
    (hin : r ∈ s.track.table ++ s.handoff.expected) :
    duplicateCheck r.ref s = { s with
      track := { s.track with
        table := s.track.table.map (checked r (foundDuplicate s r) (marked .duplicate)) }
      handoff := { s.handoff with
        expected :=
          s.handoff.expected.map (checked r (foundDuplicate s r) (markedDue .duplicate)) }
      resolution := (duplicateCheck r.ref s).resolution
      supervision := if foundDuplicate s r then raised .duplicates s.supervision
        else s.supervision } := by
  have hcheck : duplicateCheck r.ref s = match duplicatesOf s r with
      | [] => s
      | found => bump .duplicates ((r.ref :: found).foldl (fun t x => markStray .duplicate x t) s) := by
    rw [duplicateCheck, hr] <;> rfl
  cases hfound : foundDuplicate s r with
  | false =>
    have htable : s.track.table.map (checked r false (marked .duplicate)) = s.track.table := by
      conv_rhs => rw [← List.map_id s.track.table]
      refine List.map_congr_left fun x hx => ?_
      rw [← hfound]
      exact checked_of_unfound hfound (List.mem_append_left _ hx)
    have hexpected : s.handoff.expected.map (checked r false (markedDue .duplicate))
        = s.handoff.expected := by
      conv_rhs => rw [← List.map_id s.handoff.expected]
      refine List.map_congr_left fun x hx => ?_
      rw [← hfound]
      exact checked_of_unfound hfound (List.mem_append_right _ hx)
    rw [duplicatesOf_eq_nil_iff.mpr hfound] at hcheck
    rw [hcheck, htable, hexpected]
    rfl
  | true =>
    have hne : duplicatesOf s r ≠ [] := fun h => by
      rw [duplicatesOf_eq_nil_iff, hfound] at h
      cases h
    have hbump : duplicateCheck r.ref s = bump .duplicates
        ((r.ref :: duplicatesOf s r).foldl (fun t x => markStray .duplicate x t) s) := by
      rw [hcheck]
      split
      · next hnil => exact absurd hnil hne
      · rfl
    have hall : ∀ ref ∈ r.ref :: duplicatesOf s r,
        (inTable s ref).isSome = true ∨ (inExpected s ref).isSome = true := by
      have hof : ∀ x ∈ s.track.table ++ s.handoff.expected,
          (inTable s x.ref).isSome = true ∨ (inExpected s x.ref).isSome = true := fun x hx =>
        (List.mem_append.mp hx).imp (fun h => by rw [inTable_of_mem hrefs h]; rfl)
          fun h => by rw [inExpected_of_mem hrefs h]; rfl
      intro ref hmem
      rcases List.mem_cons.mp hmem with rfl | hmem
      · exact hof r hin
      · rw [duplicatesOf_eq] at hmem
        obtain ⟨x, hx, rfl⟩ := List.mem_map.mp hmem
        exact hof x (List.mem_filter.mp hx).1
    have hmarks := markAll_eq (cause := .duplicate) hrefs hstates hall
    have htable : s.track.table.map (markedIf (r.ref :: duplicatesOf s r) (marked .duplicate))
        = s.track.table.map (checked r true (marked .duplicate)) :=
      List.map_congr_left fun x hx => by
        rw [markedIf_duplicates hrefs hfound (List.mem_append_left _ hx), hfound]
    have hexpected :
        s.handoff.expected.map (markedIf (r.ref :: duplicatesOf s r) (markedDue .duplicate))
          = s.handoff.expected.map (checked r true (markedDue .duplicate)) :=
      List.map_congr_left fun x hx => by
        rw [markedIf_duplicates hrefs hfound (List.mem_append_right _ hx), hfound]
    rw [htable, hexpected] at hmarks
    rw [hbump, bump_eq, hmarks]
    rfl

theorem checked_keeps {found : Bool} {mark : Record → Record} (hmark : ∀ x, (mark x).ref = x.ref)
    (x : Record) : (checked r found mark x).ref = x.ref := by
  unfold checked
  split
  · exact hmark x
  · rfl

/-- The duplicate check on the record itself. -/
theorem checked_self {found : Bool} {mark : Record → Record} :
    checked r found mark r = if found then mark r else r := by
  simp [checked, duplicateOf]

/-- The duplicate check on another record. -/
theorem checked_other {found : Bool} {mark : Record → Record} {x : Record} (h : x.ref ≠ r.ref) :
    checked r found mark x = if twin r.tag x then mark x else x := by
  simp [checked, duplicateOf, h]

/-! ## The lap check (R97) -/

theorem lapCheck_eq (hr : heldRecord s ref = some r) :
    lapCheck ref s = if s.start.image.lapLimit ≤ r.laps then markStray .laps ref s else s := by
  rw [lapCheck, hr]
  rfl

/-! ## Read windows (R32, R35) -/

/-- A record whose window closes without a tag: one with neither tag nor mark is marked NOREAD. -/
def closedUnread (x : Record) : Record :=
  { x with
    window := .closed
    stray := if x.tag = none ∧ x.stray = none then some .noread else x.stray }

theorem closeWindow_eq (hrefs : RefsHeldOnce s) (hr : inTable s r.ref = some r) :
    closeWindow r s = { s with
      track := { s.track with table := updateIn s.track.table r.ref closedUnread }
      resolution := (closeWindow r s).resolution } := by
  have hupdate := updateRecord_of_inTable (f := fun r => { r with window := .closed }) hrefs
    (ref := r.ref) (by rw [hr]; rfl)
  have hone : ∀ x ∈ s.track.table, x.ref = r.ref → x = r := fun x hx hxr =>
    eq_of_heldRecord hrefs (heldRecord_of_inTable hr) (mem_table_held hx) hxr
  unfold closeWindow noreadOn untagged
  cases htag : r.tag with
  | some g =>
    have hclosed := updateIn_congr (l := s.track.table) (ref := r.ref)
      (f := fun r => { r with window := .closed }) (g := closedUnread) fun x hx hxr => by
        rw [hone x hx hxr, closedUnread, if_neg (by simp [htag])]
    rw [Option.isNone_some, if_neg Bool.false_ne_true, hupdate, hclosed]
  | none =>
    have hclosed := updateIn_congr (l := s.track.table) (ref := r.ref)
      (f := fun r => marked .noread { r with window := .closed }) (g := closedUnread)
      fun x hx hxr => by
        rw [hone x hx hxr]
        simp [marked, closedUnread, htag]
    have hmark := markStray_updateRecord_inTable (cause := .noread)
      (f := fun r => { r with window := .closed }) (fun _ => rfl) hrefs hr
    rw [hclosed] at hmark
    rw [Option.isNone_none, if_pos rfl]
    exact hmark

theorem keepsRequests_closeWindow (r : Record) (s : State) : KeepsRequests s (closeWindow r s) := by
  unfold closeWindow noreadOn
  have hclose := keepsRequests_updateRecord r.ref (f := fun r => { r with window := .closed })
    (fun _ => rfl) s
  split
  · exact hclose.trans (keepsRequests_markStray _ _ _)
  · exact hclose

end

end Sys2Proof.Machine

/-! # What the tag reader does to the records (section 2.4) -/

namespace Sys2Proof.Machine

section
variable {s t u : State} {ref : BagRef} {r : Record}

theorem inTable_congr (h : t.track.table = s.track.table) (ref : BagRef) : inTable t ref = inTable s ref := by
  rw [inTable, h, inTable]

/-- A record of the track table that is changed there, the others standing. -/
theorem inTable_of_updateIn {f : Record → Record} (hf : ∀ x, (f x).ref = x.ref)
    (htable : t.track.table = updateIn s.track.table ref f) (hr : inTable s ref = some r) :
    inTable t ref = some (f r) ∧ ∀ other, other ≠ ref → inTable t other = inTable s other := by
  refine ⟨?_, fun other hother => ?_⟩
  · rw [inTable, htable, findIn_updateIn_same _ _ _ hf]
    show (inTable s ref).map f = _
    rw [hr]
    rfl
  · rw [inTable, htable, findIn_updateIn_other _ _ hf hother]
    rfl

theorem closedUnread_ref (x : Record) : (closedUnread x).ref = x.ref := rfl

/-- A NOREAD result of the front-most open window, or a close without result. -/
theorem exec_closes {c : Instr} (hb : BagsKept s) (hrun : s.start.node = .run)
    (hreader : s.start.image.readerFitted = true) (hopen : r.window = .open)
    (hc : c = .readerMessage [0xA5, 2, 0, 0, 0, 0x59] ∧ s.track.readerBytes = []
        ∧ s.track.table.find? (fun x => decide (x.window = .open)) = some r
      ∨ c = .readWindowClose r.ref ∧ inTable s r.ref = some r
        ∧ ∃ p, r.trail = some p
          ∧ reached s (ahead p (s.start.image.readerDistance + s.start.image.readerLatency)) = true) :
    ∃ bytes gap, exec c s = .next (closeWindow r (setReader bytes gap s))
      ∧ inTable s r.ref = some r := by
  rcases hc with ⟨rfl, hempty, hfront⟩ | ⟨rfl, hr, p, htrail, hreached⟩
  · refine ⟨[], none, ?_, inTable_of_mem hb.2.2 (List.mem_of_find?_eq_some hfront)⟩
    have hfront' : frontOpenWindow (setReader [] none s) = some r := hfront
    have hresult : readerResult [0xA5, 2, 0, 0, 0, 0x59] = some .noread := by
      rw [readerResult_six, if_neg (by decide)]
      rfl
    rw [readerMessage_eq hrun hreader, readerMessage_whole hempty, hresult]
    simp only [takeResult, hfront']
  · refine ⟨s.track.readerBytes, s.track.readerGap, ?_, hr⟩
    show execReadWindowClose r.ref s = .next (closeWindow r s)
    have hclose : windowCloseReached s r = true := by
      simp [windowCloseReached, htrail, hreader, hreached]
    simp only [execReadWindowClose, hr]
    rw [if_pos ⟨inRun_of_run hrun, hopen, hclose⟩]

/-- Settles O26: a window that closes without a tag, and one that opens. -/
theorem readWindowsOpenAndClose : Obligations.ReadWindowsOpenAndClose := by
  refine ⟨fun s r c hb hrun hreader hopen hc => ?_, fun s r p hb hrun hr hwin hlead hreader hreached => ?_⟩
  · obtain ⟨bytes, gap, hexec, hr⟩ := exec_closes hb hrun hreader hopen hc
    have heq := closeWindow_eq (s := setReader bytes gap s) (r := r) hb.2.2 hr
    have hkeeps := keepsRequests_closeWindow r (setReader bytes gap s)
    obtain ⟨hsame, hothers⟩ := inTable_of_updateIn closedUnread_ref (congrArg (·.track.table) heq) hr
    exact ⟨_, _, hexec, hsame, rfl, hothers, congrArg (·.supervision) heq,
      congrArg (·.track.bagSeq) heq, congrArg (·.handoff) heq, congrArg (·.position) heq,
      congrArg (·.outlets) heq, congrArg (·.start) heq, congrArg (·.line) heq,
      congrArg (·.induction) heq, hkeeps.exceptions⟩
  · have hopens : windowOpenReached s r = true := by
      simp [windowOpenReached, hlead, hreader, hreached]
    have hexec : exec (.readWindowOpen r.ref) s = .next (openWindow r.ref s) := by
      show execReadWindowOpen r.ref s = _
      simp only [execReadWindowOpen, hr]
      rw [if_pos ⟨inRun_of_run hrun, hwin, hopens⟩]
    rw [hexec, openWindow, updateRecord_of_inTable hb.2.2 (by rw [hr]; rfl)]

/-! ## A READ result (R33, R34, R99) -/

theorem readClears_eq (c : Option StrayCause) : readClears c
    = decide (c = none ∨ c = some .noread ∨ c = some .anon ∨ c = some .doubt) := by
  rcases c with _ | c
  · rfl
  · cases c <;> rfl

theorem otherTag_iff {cabin letter : Nat} : otherTag r cabin letter = true
    ↔ ∃ g, r.tag = some g ∧ (g.cabin ≠ cabin ∨ g.letter ≠ letter) := by
  cases htag : r.tag with
  | none => simp [otherTag, htag]
  | some g => simp [otherTag, htag]

/-- The record that takes the tag, with its lap check (R33 steps 1 to 3, R99). -/
def readAndLapped (limit cabin letter : Nat) (r x : Record) : Record :=
  if readClears r.stray = true ∧ limit ≤ r.laps then marked .laps (readRecord cabin letter x)
  else readRecord cabin letter x

theorem readAndLapped_keeps (limit cabin letter : Nat) (r x : Record) :
    (readAndLapped limit cabin letter r x).ref = x.ref
      ∧ (readAndLapped limit cabin letter r x).tag = some ⟨cabin, letter, .read⟩ := by
  unfold readAndLapped
  split <;> exact ⟨rfl, rfl⟩

/-- Steps 1 to 3 of a bound READ result. -/
def readTaken (r : Record) (cabin letter : Nat) (s : State) : State :=
  if readClears r.stray then lapCheck r.ref (updateRecord r.ref (readRecord cabin letter) s)
  else updateRecord r.ref (readRecord cabin letter) s

theorem bindRead_eq (r : Record) (cabin letter : Nat) (s : State) : bindRead r cabin letter s
    = raiseRequest r.ref (duplicateCheck r.ref (readTaken r cabin letter s)) := rfl

theorem keepsRequests_readTaken (r : Record) (cabin letter : Nat) (s : State) :
    KeepsRequests s (readTaken r cabin letter s) := by
  have hread := keepsRequests_updateRecord r.ref (f := readRecord cabin letter) (fun _ => rfl) s
  unfold readTaken
  split
  · exact hread.trans (keepsRequests_lapCheck _ _)
  · exact hread

theorem readTaken_eq {cabin letter : Nat} (hrefs : RefsHeldOnce s) (hr : inTable s r.ref = some r) :
    readTaken r cabin letter s = { s with
      track := { s.track with
        table := updateIn s.track.table r.ref
          (readAndLapped s.start.image.lapLimit cabin letter r) }
      resolution := (readTaken r cabin letter s).resolution } := by
  have hread := updateRecord_of_inTable (f := readRecord cabin letter) hrefs (ref := r.ref)
    (by rw [hr]; rfl)
  have hheld : heldRecord (updateRecord r.ref (readRecord cabin letter) s) r.ref
      = some (readRecord cabin letter r) := by
    rw [heldRecord_updateRecord_same (f := readRecord cabin letter) (fun _ => rfl), heldRecord_of_inTable hr]
    rfl
  unfold readTaken
  by_cases hclears : readClears r.stray = true
  · rw [if_pos hclears, lapCheck_eq hheld]
    by_cases hlaps : s.start.image.lapLimit ≤ r.laps
    · have hfun : readAndLapped s.start.image.lapLimit cabin letter r
          = fun x => marked .laps (readRecord cabin letter x) := by
        funext x
        rw [readAndLapped, if_pos ⟨hclears, hlaps⟩]
      have hmark := markStray_updateRecord_inTable (cause := .laps) (f := readRecord cabin letter)
        (fun _ => rfl) hrefs hr
      rw [if_pos (by exact hlaps), hfun]
      exact hmark
    · have hfun : readAndLapped s.start.image.lapLimit cabin letter r = readRecord cabin letter := by
        funext x
        rw [readAndLapped, if_neg fun h => hlaps h.2]
      rw [if_neg (by exact hlaps), hfun, hread]
  · have hfun : readAndLapped s.start.image.lapLimit cabin letter r = readRecord cabin letter := by
      funext x
      rw [readAndLapped, if_neg fun h => hclears h.1]
    rw [if_neg hclears, hfun, hread]

/-- Changing the checked record itself does not change what duplicates there are. -/
theorem any_duplicateOf_updateIn {q : Record} {f : Record → Record} (l : List Record)
    (hf : ∀ x, (f x).ref = x.ref) :
    (updateIn l q.ref f).any (duplicateOf q) = l.any (duplicateOf q) := by
  rw [updateIn, List.any_map]
  congr 1
  funext x
  by_cases hx : x.ref = q.ref
  · simp [duplicateOf, hx, hf]
  · simp [hx]

theorem twin_some (g : Tag) (x : Record) :
    twin (some g) x = decide (x.tag.map (fun t => (t.cabin, t.letter)) = some (g.cabin, g.letter)) := by
  simp [twin]

/-- The record of a READ result as the event leaves it. -/
theorem read_record_eq {limit cabin letter : Nat} {duplicate : Bool} :
    (if duplicate then marked .duplicate (readAndLapped limit cabin letter r r)
      else readAndLapped limit cabin letter r r)
      = { readRecord cabin letter r with
          stray := if readClears r.stray then
              (if limit ≤ r.laps then some .laps else if duplicate then some .duplicate else none)
            else r.stray } := by
  by_cases hclears : readClears r.stray = true
  · have hstray : (readRecord cabin letter r).stray = none := if_pos hclears
    by_cases hlaps : limit ≤ r.laps
    · have hmark : readAndLapped limit cabin letter r r
          = { readRecord cabin letter r with stray := some .laps } := by
        rw [readAndLapped, if_pos ⟨hclears, hlaps⟩, marked_of_none hstray]
      rw [hmark, marked_of_stray (by simp), if_pos hclears, if_pos hlaps, ite_self]
    · have hsame : readAndLapped limit cabin letter r r = readRecord cabin letter r := by
        rw [readAndLapped, if_neg fun h => hlaps h.2]
      rw [hsame, marked_of_none hstray, if_pos hclears, if_neg hlaps]
      cases duplicate with
      | true => rfl
      | false => rw [if_neg Bool.false_ne_true, if_neg Bool.false_ne_true, ← hstray]
  · have hsame : readAndLapped limit cabin letter r r = readRecord cabin letter r := by
      rw [readAndLapped, if_neg fun h => hclears h.1]
    have hstray : (readRecord cabin letter r).stray = r.stray := if_neg hclears
    have hne : r.stray ≠ none := fun h => hclears (by rw [h]; rfl)
    rw [hsame, marked_of_stray (by rwa [hstray]), ite_self, if_neg hclears, ← hstray]

theorem exec_read {c1 c0 letter check : Byte} (hrun : s.start.node = .run)
    (hreader : s.start.image.readerFitted = true) (hempty : s.track.readerBytes = [])
    (hcabin : validCabin (c1.toNat * 256 + c0.toNat) = true) (hletter : letter.toNat ≤ 7)
    (hsum : 0xA5 + 1 + c1 + c0 + letter + check = (0 : Byte))
    (hfront : s.track.table.find? (fun x => decide (x.window = .open)) = some r) :
    exec (.readerMessage [0xA5, 1, c1, c0, letter, check]) s
      = .next (bindRead r (c1.toNat * 256 + c0.toNat) letter.toNat (setReader [] none s)) := by
  have hresult : readerResult [0xA5, 1, c1, c0, letter, check]
      = some (.read (c1.toNat * 256 + c0.toNat) letter.toNat) := by
    rw [readerResult_six, if_neg (by rw [hsum]; simp), if_neg (by decide),
      if_pos ⟨rfl, hcabin, hletter⟩]
  have hfront' : frontOpenWindow (setReader [] none s) = some r := hfront
  rw [readerMessage_eq hrun hreader, readerMessage_whole hempty, hresult]
  simp only [takeResult, hfront']

theorem foundDuplicate_readTaken {cabin letter : Nat} (hrefs : RefsHeldOnce s)
    (hr : inTable s r.ref = some r) {q : Record} (hqref : q.ref = r.ref)
    (hqtag : q.tag = some ⟨cabin, letter, .read⟩) :
    foundDuplicate (readTaken r cabin letter s) q
      = (s.track.table ++ s.handoff.expected).any (fun x =>
        decide (x.ref ≠ r.ref ∧ x.tag.map (fun t => (t.cabin, t.letter)) = some (cabin, letter))) := by
  have hfun : duplicateOf q = fun x =>
      decide (x.ref ≠ r.ref ∧ x.tag.map (fun t => (t.cabin, t.letter)) = some (cabin, letter)) := by
    funext x
    rw [duplicateOf, hqtag, hqref, twin_some, Bool.decide_and]
  have heq := readTaken_eq (cabin := cabin) (letter := letter) hrefs hr
  have htable := congrArg (·.track.table) heq
  have hexpected := congrArg (·.handoff.expected) heq
  dsimp only at htable hexpected
  rw [foundDuplicate, htable, hexpected, List.any_append, List.any_append, ← hqref,
    any_duplicateOf_updateIn _ fun x => (readAndLapped_keeps _ _ _ _ x).1, hfun, hqref]

/-- A bound READ result: what it leaves in the collections and the counters. -/
theorem bindRead_spec {cabin letter : Nat} {duplicate : Bool} (hrefs : RefsHeldOnce s)
    (hstates : ∀ x ∈ s.handoff.expected, x.state = .expected) (hr : inTable s r.ref = some r)
    (hduplicate : duplicate = (s.track.table ++ s.handoff.expected).any (fun x =>
      decide (x.ref ≠ r.ref ∧ x.tag.map (fun t => (t.cabin, t.letter)) = some (cabin, letter)))) :
    ∃ q, q = readAndLapped s.start.image.lapLimit cabin letter r r
      ∧ bindRead r cabin letter s = { s with
        track := { s.track with
          table := (updateIn s.track.table r.ref
            (readAndLapped s.start.image.lapLimit cabin letter r)).map
              (checked q duplicate (marked .duplicate)) }
        handoff := { s.handoff with
          expected := s.handoff.expected.map (checked q duplicate (markedDue .duplicate)) }
        resolution := (bindRead r cabin letter s).resolution
        supervision := if duplicate then raised .duplicates s.supervision else s.supervision }
      ∧ KeepsRequests s (bindRead r cabin letter s)
      ∧ Requested s (bindRead r cabin letter s) r.ref := by
  obtain ⟨q, hq⟩ : ∃ q, q = readAndLapped s.start.image.lapLimit cabin letter r r := ⟨_, rfl⟩
  have hqref : q.ref = r.ref := by rw [hq, (readAndLapped_keeps _ _ _ _ _).1]
  have hqtag : q.tag = some ⟨cabin, letter, .read⟩ := by rw [hq, (readAndLapped_keeps _ _ _ _ _).2]
  have htaken := readTaken_eq (cabin := cabin) (letter := letter) hrefs hr
  have hkeeps := keepsRequests_readTaken r cabin letter s
  have hfound : foundDuplicate (readTaken r cabin letter s) q = duplicate := by
    rw [foundDuplicate_readTaken hrefs hr hqref hqtag, ← hduplicate]
  have hin : inTable (readTaken r cabin letter s) r.ref = some q := by
    rw [hq]
    exact (inTable_of_updateIn (fun x => (readAndLapped_keeps _ _ _ _ x).1)
      (congrArg (·.track.table) htaken) hr).1
  have hcheck := duplicateCheck_eq (r := q) (hkeeps.refs.refsHeldOnce hrefs)
    (by rw [htaken]; exact hstates) (by rw [hqref]; exact heldRecord_of_inTable hin)
    (List.mem_append_left _ (inTable_mem hin))
  rw [hfound, hqref] at hcheck
  have hkeeps' := hkeeps.trans (keepsRequests_duplicateCheck r.ref (readTaken r cabin letter s))
  have hsome : (inTable s r.ref).isSome = true := by rw [hr]; rfl
  have hexp : inExpected (duplicateCheck r.ref (readTaken r cabin letter s)) r.ref = none := by
    rw [← Option.isNone_iff_eq_none, ← Option.not_isSome, hkeeps'.refs.inExpected_isSome,
      (not_inbound_of_inTable hrefs hsome).2]
    rfl
  have hheld : (heldRecord (duplicateCheck r.ref (readTaken r cabin letter s)) r.ref).isSome = true := by
    rw [hkeeps'.refs.heldRecord_isSome, heldRecord_of_inTable hr]
    rfl
  refine ⟨q, hq, ?_, hkeeps'.trans (keepsRequests_raiseRequest _ _),
    requested_between hkeeps' hexp hheld (.refl _)⟩
  rw [bindRead_eq]
  have hraise := raiseRequest_eq_resolution hexp
  obtain ⟨u, hu⟩ : ∃ u, u = (raiseRequest r.ref
    (duplicateCheck r.ref (readTaken r cabin letter s))).resolution := ⟨_, rfl⟩
  rw [← hu] at hraise ⊢
  rw [hraise, hcheck, htaken]

/-- Settles O25: the record takes the tag, and its duplicates are marked. -/
theorem readResultBindsTag : Obligations.ReadResultBindsTag := by
  rintro s r c1 c0 letter check _ clears duplicate hb hstates hrun hreader hempty rfl hlow hhigh hletter
    hsum hfront rfl hduplicate
  obtain ⟨cabin, hcabin⟩ : ∃ cabin, cabin = c1.toNat * 256 + c0.toNat := ⟨_, rfl⟩
  have hexec := exec_read hrun hreader hempty (validCabin_iff.mpr ⟨hlow, hhigh⟩) hletter hsum hfront
  rw [← hcabin] at hexec hduplicate ⊢
  have hr : inTable s r.ref = some r := inTable_of_mem hb.2.2 (List.mem_of_find?_eq_some hfront)
  obtain ⟨q, hq, heq, hkeeps, hrequested⟩ := bindRead_spec (s := setReader [] none s) hb.2.2
    hstates.2.2 hr hduplicate
  have hqkeeps := readAndLapped_keeps s.start.image.lapLimit cabin letter.toNat r r
  have hqref : q.ref = r.ref := by rw [hq]; exact hqkeeps.1
  have hqtag : q.tag = some ⟨cabin, letter.toNat, .read⟩ := by rw [hq]; exact hqkeeps.2
  obtain ⟨t, ht⟩ : ∃ t, t = bindRead r cabin letter.toNat (setReader [] none s) := ⟨_, rfl⟩
  rw [← ht] at hexec heq hkeeps hrequested
  have htable := congrArg (·.track.table) heq
  have hexpected := congrArg (·.handoff.expected) heq
  have hsup := congrArg (·.supervision) heq
  dsimp only at htable hexpected hsup
  have hlook : ∀ x ∈ s.track.table, inTable t x.ref = some (checked q duplicate (marked .duplicate)
      (if x.ref = r.ref then readAndLapped s.start.image.lapLimit cabin letter.toNat r x else x)) := by
    intro x hx
    have hfind : findIn s.track.table x.ref = some x := inTable_of_mem hb.2.2 hx
    rw [inTable, htable, findIn_map _ _ (checked_keeps (marked_ref .duplicate)), updateIn,
      findIn_map _ _ (fun y => by
        split
        · exact (readAndLapped_keeps _ _ _ _ y).1
        · rfl)]
    show ((findIn s.track.table x.ref).map _).map _ = _
    rw [hfind]
    rfl
  have hrecord := hlook r (inTable_mem hr)
  rw [if_pos rfl, ← show q = readAndLapped s.start.image.lapLimit cabin letter.toNat r r from hq,
    checked_self, show q = readAndLapped s.start.image.lapLimit cabin letter.toNat r r from hq,
    read_record_eq] at hrecord
  refine ⟨_, t, hexec, hrecord, rfl, ?_, rfl, rfl, rfl, ?_, ?_, fun x hx hne => ?_, ?_,
    congrArg (·.handoff.pendingOffers) heq, hrequested, ?_, ?_, congrArg (·.track.readerBytes) heq,
    hkeeps.refs.1, congrArg (·.position) heq, congrArg (·.outlets) heq, congrArg (·.start) heq,
    congrArg (·.line) heq, hkeeps.exceptions, congrArg (·.induction) heq⟩
  · show (r.relabelled || otherTag r cabin letter.toNat) = true ↔ _
    rw [Bool.or_eq_true, otherTag_iff]
  · show (if readClears r.stray then false else r.lengthDoubt) = _
    rw [readClears_eq]
    cases decide (r.stray = none ∨ r.stray = some .noread ∨ r.stray = some .anon
      ∨ r.stray = some .doubt) <;> simp
  · show (if readClears r.stray = true then _ else _) = _
    rw [readClears_eq]
  · rw [hlook x hx, if_neg hne, checked_other (by rwa [hqref]), hqtag]
    rfl
  · rw [hexpected]
    refine List.map_congr_left fun x hx => ?_
    have hne : x.ref ≠ q.ref := fun h => by
      have hnone := (not_inbound_of_inTable hb.2.2 (ref := r.ref) (by rw [hr]; rfl)).2
      rw [← hqref, ← h, inExpected_of_mem hb.2.2 hx] at hnone
      cases hnone
    rw [checked_other hne, hqtag]
    rfl
  · show t.supervision.counters.get _ = _
    rw [hsup]
    cases duplicate with
    | true => exact raised_get_same _ _
    | false => rfl
  · show t.supervision.counters.get _ = _
    rw [hsup]
    cases duplicate with
    | true => exact raised_get_other _ (by simp)
    | false => rfl

end

end Sys2Proof.Machine

/-! # Arming and fire (sections 4.2, 4.3 and 4.5) -/

namespace Sys2Proof.Machine

section
variable {s t u : State} {ref : BagRef} {r : Record}

/-! ## A refusal (R68, R75, R82) -/

theorem refusedAs_ref (station : Nat) (cause : RefusalCause) (x : Record) :
    (refusedAs station cause x).ref = x.ref := rfl

theorem refuse_eq_updateRecord (cause : RefusalCause) (ref : BagRef) (s : State) : refuse cause ref s
    = { updateRecord ref (refusedAs s.start.station cause) s with
        supervision := raised .refusals s.supervision } := by
  have hfun : (fun r : Record => addRefusal s.start.station cause
      { r with
        state := .onBelt, verdict := .pass, verdictFixed := true, firePosition := none,
        confirmTimer := none }) = refusedAs s.start.station cause := by
    funext x
    simp [addRefusal, refusedAs, Config.refusalCapacity]
  rw [refuse, bump_eq, hfun]
  rfl

theorem refuse_eq {cause : RefusalCause} (hrefs : RefsHeldOnce s)
    (h : (inTable s ref).isSome = true) : refuse cause ref s = { s with
      track := { s.track with
        table := updateIn s.track.table ref (refusedAs s.start.station cause) }
      supervision := raised .refusals s.supervision } := by
  rw [refuse_eq_updateRecord, updateRecord_of_inTable hrefs h]

theorem keepsRequests_refuse (cause : RefusalCause) (ref : BagRef) (s : State) :
    KeepsRequests s (refuse cause ref s) := by
  rw [refuse_eq_updateRecord]
  exact (keepsRequests_updateRecord ref (refusedAs_ref s.start.station cause) s).trans
    (.of_same (sameRefs_of_eq rfl rfl) rfl)

/-- A record refused OVERSIZE and marked (R69). -/
theorem refuse_oversize_eq (hrefs : RefsHeldOnce s) (hr : inTable s ref = some r) :
    markStray .oversize ref (refuse .oversize ref s) = { s with
      track := { s.track with
        table := updateIn s.track.table ref
          fun x => marked .oversize (refusedAs s.start.station .oversize x) }
      supervision := raised .refusals s.supervision
      resolution := (markStray .oversize ref (refuse .oversize ref s)).resolution } := by
  have hrefuse := refuse_eq (cause := .oversize) hrefs (ref := ref) (by rw [hr]; rfl)
  have htable : (refuse .oversize ref s).track.table
      = updateIn s.track.table ref (refusedAs s.start.station .oversize) :=
    congrArg (·.track.table) hrefuse
  have hin := (inTable_of_updateIn (refusedAs_ref _ _) htable hr).1
  have hmark := markStray_of_inTable (cause := .oversize)
    ((keepsRequests_refuse .oversize ref s).refs.refsHeldOnce hrefs) hin
  obtain ⟨v, hv⟩ : ∃ v, v = (markStray .oversize ref (refuse .oversize ref s)).resolution := ⟨_, rfl⟩
  rw [← hv] at hmark ⊢
  rw [hmark, htable, updateIn_updateIn _ _ _ _ (refusedAs_ref _ _), hrefuse]

/-! ## Fire (R74, R75) -/

theorem outletFollowed_of_role {k : OutletNo} (h : (s.start.image.outlets.get k).role ≠ .unused) :
    outletFollowed s k = true := by
  simp [outletFollowed, h]

/-- The four conditions of a followed outlet in RUN (R65). -/
theorem outlet_conditions {k : OutletNo} (hrun : s.start.node = .run)
    (hrole : (s.start.image.outlets.get k).role ≠ .unused) :
    isFull s k = decide ((s.start.image.outlets.get k).capacity ≤ (s.outlets.get k).fill)
      ∧ isHeld s k = ((s.outlets.get k).holdSwitch || (s.outlets.get k).lineHold)
      ∧ isNoCart s k = !(s.outlets.get k).cartPresent
      ∧ isFaulted s k = (s.outlets.get k).faulted := by
  have hfollowed := outletFollowed_of_role hrole
  simp [isFull, isHeld, isNoCart, isFaulted, hfollowed, hrun]

theorem fireReached_eq {k : OutletNo} {fire : Position} (hstate : r.state = .armed)
    (houtlet : verdictOutlet r.verdict = some k) (hfire : r.firePosition = some fire)
    (hreached : reached s fire = true) : fireReached s r = some k := by
  rw [fireReached, hfire]
  exact (if_pos ⟨hstate, hreached⟩).trans houtlet

theorem exec_fire {k : OutletNo} (hrun : s.start.node = .run) (hr : inTable s ref = some r)
    (hfire : fireReached s r = some k) : exec (.fire ref) s = .next (takeFire k ref s) := by
  show execFire ref s = _
  simp only [execFire, hr, hfire, inRun_of_run hrun, if_true]

theorem fireRefusal_eq {k : OutletNo} (hrun : s.start.node = .run)
    (hrole : (s.start.image.outlets.get k).role ≠ .unused) :
    fireRefusal s k = if (s.start.image.outlets.get k).capacity ≤ (s.outlets.get k).fill then .full
      else if (s.outlets.get k).holdSwitch = true ∨ (s.outlets.get k).lineHold = true then .held
      else if (s.outlets.get k).cartPresent = false then .noCart
      else if (s.outlets.get k).faulted = true then .faulted else .busy := by
  obtain ⟨hfull, hheld, hcart, hfaulted⟩ := outlet_conditions hrun hrole
  simp [fireRefusal, hfull, hheld, hcart, hfaulted]

/-- An outlet is open where no cause but BUSY can refuse at it. -/
theorem isOpen_iff_busy {k : OutletNo} : isOpen s k = true ↔ fireRefusal s k = .busy := by
  unfold isOpen fireRefusal
  cases isFull s k <;> cases isHeld s k <;> cases isNoCart s k <;> cases isFaulted s k <;> decide

/-- Settles O35: at an open outlet whose pusher is HOME the fire event drives it, and elsewhere it
refuses. -/
theorem fireExtendsOrRefuses : Obligations.FireExtendsOrRefuses := by
  refine ⟨?_, ?_⟩
  · intro s r k fire hb hrun hr hstate houtlet hfire hreached hrole hfill hswitch hline hcart hfaulted
      hpusher
    have hopen : isOpen s k = true := by
      rw [isOpen_iff_busy, fireRefusal_eq hrun hrole, if_neg (by omega), if_neg (by simp [hswitch, hline]),
        if_neg (by simp [hcart]), if_neg (by simp [hfaulted])]
    have hexec := exec_fire hrun hr (fireReached_eq hstate houtlet hfire hreached)
    rw [takeFire, if_pos ⟨hopen, hpusher⟩, updateRecord_of_inTable hb.2.2 (by rw [hr]; rfl)] at hexec
    refine ⟨_, hexec, ?_, rfl⟩
    simp [pusherOutput]
  · rintro s r k fire _ cause hb hrun hr hstate houtlet hfire hreached hrole rfl hcause hnot
    have hrefusal : fireRefusal s k = cause := (fireRefusal_eq hrun hrole).trans hcause.symm
    have hclosed : ¬(isOpen s k = true ∧ (s.outlets.get k).pusher = .home) := by
      rintro ⟨hopen, hhome⟩
      rw [isOpen_iff_busy, hrefusal] at hopen
      exact hnot.elim (fun h => h hopen) fun h => h hhome
    rw [exec_fire hrun hr (fireReached_eq hstate houtlet hfire hreached), takeFire, if_neg hclosed,
      hrefusal, refuse_eq hb.2.2 (by rw [hr]; rfl)]

/-! ## Arming (R68 to R72) -/

theorem armingReached_eq_some_iff {k : OutletNo} : armingReached s r = some k ↔
    verdictOutlet r.verdict = some k ∧ r.state = .onBelt ∧ r.verdictFixed = false
      ∧ s.track.openMerge ≠ some r.ref ∧ ∃ p, r.lead = some p
        ∧ reached s (behind (ahead p (s.start.image.outlets.get k).distance)
          s.start.image.armDistance) = true := by
  unfold armingReached
  cases hv : verdictOutlet r.verdict with
  | none => simp
  | some j =>
    cases hl : r.lead with
    | none => simp
    | some p =>
      dsimp only
      constructor
      · intro h
        split at h
        · next hall =>
          obtain ⟨hs, hf, ho, hr⟩ := hall
          cases h
          exact ⟨rfl, hs, hf, ho, p, rfl, hr⟩
        · cases h
      · rintro ⟨hj, hs, hf, ho, q, hq, hr⟩
        cases hj
        cases hq
        exact if_pos ⟨hs, hf, ho, hr⟩

theorem exec_arming {k : OutletNo} (hrun : s.start.node = .run) (hr : inTable s ref = some r)
    (hk : armingReached s r = some k) : exec (.arming ref) s = .next (takeArming k r s) := by
  show execArming ref s = _
  simp only [execArming, inRun_of_run hrun, if_true, settleArming, hr, hk]

theorem gapAheadOk_iff {lead : Position} {g : Nat} : gapAheadOk s ref lead g = true ↔
    ∀ p, precedingIn s.track.table ref = some p → ∃ q, p.trail = some q ∧ (g : Int) ≤ dist q lead := by
  unfold gapAheadOk
  cases precedingIn s.track.table ref with
  | none => simp
  | some p => cases hp : p.trail <;> simp [hp]

theorem gapBehindOk_iff {trail : Position} {g : Nat} : gapBehindOk s ref trail g = true ↔
    (∀ f, followingIn s.track.table ref = some f → ∃ l, f.lead = some l ∧ (g : Int) ≤ dist trail l)
      ∧ (followingIn s.track.table ref = none → (g : Int) ≤ dist trail s.position.counter) := by
  unfold gapBehindOk
  cases followingIn s.track.table ref with
  | none => simp
  | some f => cases hf : f.lead <;> simp [hf]

/-- The four steps of arming with both edges known. -/
theorem armingResult_eq {k : OutletNo} {lead trail : Position} {n : Nat} (hlead : r.lead = some lead)
    (htrail : r.trail = some trail) (hlength : r.length = some n) :
    armingResult s k r = if (s.start.image.outlets.get k).maxLength < n then .oversize
      else if gapAheadOk s r.ref lead (minGap s.start.image s.position.band) = false
        ∨ gapBehindOk s r.ref trail (minGap s.start.image s.position.band) = false then .gap
      else
        let fire := firePositionOf lead (s.start.image.outlets.get k).distance n
          (pusherLead (leadTime (s.start.image.outlets.get k) s.position.band) s.position.speed
            s.start.image.armDistance)
        if 0 < dist fire s.position.counter then .tooLate else .armed fire := by
  simp only [armingResult, hlead, htrail, hlength, Option.getD_some]
  rfl

theorem armingResult_oversize {k : OutletNo} (h : r.trail = none
    ∨ ∃ n, r.length = some n ∧ (s.start.image.outlets.get k).maxLength < n) :
    armingResult s k r = .oversize := by
  unfold armingResult
  split
  · next lead trail hlead htrail =>
    rcases h with hnone | ⟨n, hn, hlong⟩
    · rw [htrail] at hnone
      cases hnone
    · rw [hn]
      exact if_pos hlong
  · rfl

/-- Settles O33: what arming refuses. -/
theorem armingRefusesLongAndClose : Obligations.ArmingRefusesLongAndClose := by
  rintro s r k lead cause _ hb hrun hr hlead hk rfl hcause
  have hexec := exec_arming hrun hr hk
  rcases hcause with ⟨rfl, hlong⟩ | ⟨rfl, trail, n, htrail, hlength, hfits, hclose⟩
  · have hresult := armingResult_oversize (s := s) (k := k) hlong
    have heq := refuse_oversize_eq hb.2.2 hr
    simp only [takeArming, hresult] at hexec
    obtain ⟨hsame, hothers⟩ := inTable_of_updateIn
      (f := fun x => marked .oversize (refusedAs s.start.station .oversize x)) (fun _ => rfl)
      (congrArg (·.track.table) heq) hr
    refine ⟨_, _, hexec, hsame, ?_, hothers, congrArg (·.supervision) heq, congrArg (·.outlets) heq,
      congrArg (·.position) heq, congrArg (·.start) heq, congrArg (·.line) heq,
      congrArg (·.handoff) heq, congrArg (·.induction) heq⟩
    simp [marked, refusedAs]
  · have hgap : armingResult s k r = .gap := by
      rw [armingResult_eq hlead htrail hlength, if_neg (by omega), if_pos]
      rw [← Bool.not_eq_true, ← Bool.not_eq_true, gapAheadOk_iff, gapBehindOk_iff]
      rcases hclose with ⟨p, hp, hnear⟩ | ⟨f, l, hf, hl, hnear⟩ | ⟨hnone, hnear⟩
      · refine .inl fun h => ?_
        obtain ⟨q, hq, hfar⟩ := h p hp
        exact absurd (hnear q hq) (not_lt.mpr hfar)
      · refine .inr fun h => ?_
        obtain ⟨l', hl', hfar⟩ := h.1 f hf
        rw [hl] at hl'
        cases hl'
        exact absurd hnear (not_lt.mpr hfar)
      · exact .inr fun h => absurd hnear (not_lt.mpr (h.2 hnone))
    have heq := refuse_eq (cause := .gap) hb.2.2 (ref := r.ref) (by rw [hr]; rfl)
    simp only [takeArming, hgap] at hexec
    obtain ⟨hsame, hothers⟩ :=
      inTable_of_updateIn (refusedAs_ref _ _) (congrArg (·.track.table) heq) hr
    exact ⟨_, _, hexec, hsame, rfl, hothers, congrArg (·.supervision) heq, congrArg (·.outlets) heq,
      congrArg (·.position) heq, congrArg (·.start) heq, congrArg (·.line) heq,
      congrArg (·.handoff) heq, congrArg (·.induction) heq⟩

/-- The pusher lead, rounded up (R71). -/
theorem pusherLead_eq (t v arm : Nat) :
    pusherLead t v arm = min arm (t * v / 80 + if t * v % 80 = 0 then 0 else 1) := by
  rw [pusherLead, min_comm]
  congr 1
  split <;> omega

/-- Settles O34: the fire position, and what follows ahead of it, at it and behind it. -/
theorem armingSetsFirePosition : Obligations.ArmingSetsFirePosition := by
  rintro s r k lead trail fire n _ _ _ _ _ hb hrun hr hlead htrail hlength hk rfl hfits rfl hahead hbehind
    hlast rfl rfl hfire rfl
  have hexec := exec_arming hrun hr hk
  obtain ⟨houtlet, -, -, -, -⟩ := armingReached_eq_some_iff.mp hk
  have hresult : armingResult s k r = if 0 < dist fire s.position.counter then .tooLate
      else .armed fire := by
    rw [armingResult_eq hlead htrail hlength, if_neg (by omega), if_neg]
    · simp only [firePositionOf, pusherLead_eq, ahead, behind, ← hfire]
    · rw [← Bool.not_eq_true, ← Bool.not_eq_true, gapAheadOk_iff, gapBehindOk_iff]
      rintro (h | h)
      · exact h hahead
      · exact h ⟨hbehind, hlast⟩
  have harmed := updateRecord_of_inTable (ref := r.ref)
    (f := fun r => { r with state := .armed, verdictFixed := true, firePosition := some fire })
    hb.2.2 (by rw [hr]; rfl)
  have hpass := updateRecord_of_inTable (ref := r.ref)
    (f := fun r => { r with verdict := .pass, verdictFixed := true }) hb.2.2 (by rw [hr]; rfl)
  refine ⟨fun hdist => ?_, fun hdist => ?_, fun hdist => ?_⟩
  · rw [if_neg (by omega)] at hresult
    have hnot : reached s fire = false := decide_eq_false (by omega)
    simp only [takeArming, hresult, hnot] at hexec
    rw [hexec]
    exact congrArg Host.Outcome.next harmed
  · rw [if_neg (by omega)] at hresult
    have hreached : reached s fire = true := decide_eq_true (by omega)
    simp only [takeArming, hresult, hreached, if_true] at hexec
    obtain ⟨t, ht⟩ : ∃ t, t = updateRecord r.ref (fun r => { r with
      state := .armed, verdictFixed := true, firePosition := some fire }) s := ⟨_, rfl⟩
    rw [hexec, ← ht, ← harmed, ← ht]
    refine (exec_fire (r := { r with state := .armed, verdictFixed := true, firePosition := some fire })
      ?_ ?_ (fireReached_eq rfl houtlet rfl ?_)).symm
    · rw [ht]
      exact hrun
    · rw [ht, inTable_updateRecord_same (by intro _; rfl), hr]
      rfl
    · rw [ht]
      exact hreached
  · rw [if_pos hdist] at hresult
    simp only [takeArming, hresult] at hexec
    rw [hexec, hpass]

end

end Sys2Proof.Machine

/-! # The exception table and the CABIN entries (section 3.2) -/

namespace Sys2Proof.Machine

section
variable {s t u : State} {ref : BagRef} {r : Record} {c : Nat}

/-! ## The table by cabin (R44, R50) -/

theorem find_storeException {l : List ExceptionEntry} (e : ExceptionEntry)
    (h : (l.map (·.cabin)).Pairwise (· < ·)) (x : Nat) :
    (storeException e l).find? (fun y => decide (y.cabin = x))
      = if x = e.cabin then some e else l.find? fun y => decide (y.cabin = x) := by
  induction l with
  | nil => by_cases hx : x = e.cabin <;> simp [storeException, hx, eq_comm]
  | cons y rest ih =>
    obtain ⟨hy, hrest⟩ := List.pairwise_cons.mp h
    specialize ih hrest
    by_cases hx : x = e.cabin
    · rw [if_pos hx] at ih ⊢
      unfold storeException
      split
      · simp [hx]
      · split
        · simp [hx]
        · next hlt hne => rwa [List.find?_cons_of_neg (by simpa [hx] using fun heq => hne heq.symm)]
    · rw [if_neg hx] at ih ⊢
      have hskip (l : List ExceptionEntry) :
          (e :: l).find? (fun y => decide (y.cabin = x)) = l.find? fun y => decide (y.cabin = x) :=
        List.find?_cons_of_neg (by simpa using Ne.symm hx)
      unfold storeException
      split
      · exact hskip _
      · split
        · next heq =>
          rw [hskip, List.find?_cons_of_neg (by simpa [← heq] using Ne.symm hx)]
        · rw [List.find?_cons, List.find?_cons, ih]

theorem find_removeException (l : List ExceptionEntry) (c x : Nat) :
    (removeException c l).find? (fun y => decide (y.cabin = x))
      = if x = c then none else l.find? fun y => decide (y.cabin = x) := by
  rw [removeException, List.find?_filter]
  by_cases hx : x = c
  · rw [if_pos hx, List.find?_eq_none]
    simp [hx]
  · rw [if_neg hx]
    congr 1
    funext y
    by_cases hy : y.cabin = x
    · simp [hy, hx]
    · simp [hy]

/-! ## Requests for several records (R51, R58, R59) -/

/-- A record of the expected list whose resolution is due (R59). -/
def madeDue (x : Record) : Record := { x with resolutionDue := true, verdict := .unresolved }

theorem raiseRequest_eq (hrefs : RefsHeldOnce s) (ref : BagRef) : raiseRequest ref s = { s with
    handoff := { s.handoff with expected := updateIn s.handoff.expected ref madeDue }
    resolution := (raiseRequest ref s).resolution } := by
  cases hexp : inExpected s ref with
  | none =>
    conv_lhs => rw [raiseRequest_eq_resolution hexp]
    rw [updateIn_absent madeDue (findIn_eq_none.mp hexp)]
  | some r =>
    obtain ⟨htable, hpend⟩ := not_elsewhere_of_inExpected hrefs (ref := ref) (by rw [hexp]; rfl)
    rw [raiseRequest_of_expected (by rw [hexp]; rfl), updateRecord,
      updateIn_absent _ (findIn_eq_none.mp htable), updateIn_absent _ (findIn_eq_none.mp hpend)]
    rfl

theorem keepsRequests_raiseRequests (refs : List BagRef) (s : State) :
    KeepsRequests s (raiseRequests refs s) := by
  induction refs generalizing s with
  | nil => exact .refl s
  | cons ref refs ih => exact (keepsRequests_raiseRequest ref s).trans (ih _)

theorem raiseRequests_eq (hrefs : RefsHeldOnce s) (refs : List BagRef) : raiseRequests refs s = { s with
    handoff := { s.handoff with
      expected := s.handoff.expected.map fun x => if x.ref ∈ refs then madeDue x else x }
    resolution := (raiseRequests refs s).resolution } := by
  induction refs generalizing s with
  | nil => simp [raiseRequests]
  | cons ref refs ih =>
    have hnext := (keepsRequests_raiseRequest ref s).refs.refsHeldOnce hrefs
    show raiseRequests refs (raiseRequest ref s) = { s with
      handoff := _, resolution := (raiseRequests refs (raiseRequest ref s)).resolution }
    have heq := ih hnext
    obtain ⟨v, hv⟩ : ∃ v, v = (raiseRequests refs (raiseRequest ref s)).resolution := ⟨_, rfl⟩
    rw [← hv] at heq ⊢
    rw [heq, raiseRequest_eq hrefs ref]
    simp only [updateIn, List.map_map]
    congr 2
    refine List.map_congr_left fun x _ => ?_
    by_cases hx : x.ref = ref
    · simp [hx, madeDue]
    · simp [hx]

theorem requested_raiseRequests {refs : List BagRef} (hmem : ref ∈ refs)
    (hexp : inExpected s ref = none) (hheld : (heldRecord s ref).isSome = true) :
    Requested s (raiseRequests refs s) ref := by
  obtain ⟨before, after, rfl⟩ := List.append_of_mem hmem
  have hkeeps := keepsRequests_raiseRequests before s
  have hfold : raiseRequests (before ++ ref :: after) s
      = raiseRequests after (raiseRequest ref (raiseRequests before s)) := List.foldl_append
  rw [hfold]
  refine requested_between hkeeps ?_ ?_ (keepsRequests_raiseRequests after _)
  · rw [← Option.not_isSome_iff_eq_none, hkeeps.refs.inExpected_isSome, hexp]
    simp
  · rwa [hkeeps.refs.heldRecord_isSome]

/-! ## A change of the table -/

theorem mem_recordsForCabin {x : Record} (hx : x ∈ heldRecords s)
    (htag : x.tag.map (·.cabin) = some c) (hfixed : x.verdictFixed = false) :
    x.ref ∈ recordsForCabin s c := by
  refine List.mem_map_of_mem (List.mem_filter.mpr ⟨hx, ?_⟩)
  simp [htag, hfixed]

theorem changeExceptions_eq (hrefs : RefsHeldOnce s) (c : Nat)
    (f : List ExceptionEntry → List ExceptionEntry) : changeExceptions c f s = { s with
      handoff := { s.handoff with
        expected := s.handoff.expected.map
          fun x => if x.ref ∈ recordsForCabin s c then madeDue x else x }
      resolution := (changeExceptions c f s).resolution } :=
  raiseRequests_eq (s := s.mapResolution fun u => { u with exceptions := f u.exceptions }) hrefs _

theorem changeExceptions_unit (c : Nat) (f : List ExceptionEntry → List ExceptionEntry) (s : State) :
    (changeExceptions c f s).resolution.exceptions = f s.resolution.exceptions
      ∧ (changeExceptions c f s).resolution.cabinEntries = s.resolution.cabinEntries :=
  have h := keepsRequests_raiseRequests (recordsForCabin s c)
    (s.mapResolution fun u => { u with exceptions := f u.exceptions })
  ⟨h.exceptions, h.entries⟩

/-- The requests that a change of the table raises (R51). -/
theorem requests_changeExceptions (hrefs : RefsHeldOnce s) (c : Nat)
    (f : List ExceptionEntry → List ExceptionEntry) :
    (∀ r ∈ s.track.table ++ s.handoff.pendingOffers, r.verdictFixed = false →
        r.tag.map (·.cabin) = some c → Requested s (changeExceptions c f s) r.ref)
      ∧ ∀ r ∈ s.handoff.expected, r.verdictFixed = false → r.tag.map (·.cabin) = some c →
        ∃ r', inExpected (changeExceptions c f s) r.ref = some r' ∧ r'.resolutionDue = true
          ∧ r'.verdict = .unresolved := by
  refine ⟨fun r hr hfixed htag => ?_, fun r hr hfixed htag => ?_⟩
  · have hheld : r ∈ heldRecords s := by
      rcases List.mem_append.mp hr with h | h
      · exact mem_table_held h
      · exact mem_pending_held h
    have hexp : inExpected s r.ref = none := by
      rcases List.mem_append.mp hr with h | h
      · exact (not_inbound_of_inTable hrefs (by rw [inTable_of_mem hrefs h]; rfl)).2
      · exact (not_elsewhere_of_inPendingOffers hrefs
          (by rw [inPendingOffers_of_mem hrefs h]; rfl)).2
    refine (requested_raiseRequests
      (s := s.mapResolution fun u => { u with exceptions := f u.exceptions })
      (mem_recordsForCabin hheld htag hfixed) hexp ?_).congr rfl
    show (heldRecord s r.ref).isSome = true
    rw [heldRecord_of_mem hrefs hheld]
    rfl
  · have hexp : inExpected (changeExceptions c f s) r.ref = (inExpected s r.ref).map
        fun x => if x.ref ∈ recordsForCabin s c then madeDue x else x := by
      rw [inExpected, changeExceptions_eq hrefs]
      refine findIn_map _ _ (fun x => ?_) _
      split <;> rfl
    rw [hexp, inExpected_of_mem hrefs hr]
    have hmem := mem_recordsForCabin (mem_expected_held hr) htag hfixed
    exact ⟨_, congrArg some (if_pos hmem), rfl, rfl⟩

/-! ## The CABIN entries that wait (R45, R46; log entry 8) -/

theorem entryWithoutEvent_eq (e : CabinEntry) : entryWithoutEvent e = rowless e := by
  rw [Bool.eq_iff_iff]
  simp only [entryWithoutEvent, rowless, validCabin, Bool.or_eq_true, decide_eq_true_eq,
    Bool.not_eq_true', decide_eq_false_iff_not]
  omega

/-- The node once the head of the CABIN entries has been taken off. -/
def withEntries (rest : List CabinEntry) (s : State) : State :=
  s.mapResolution fun u => { u with cabinEntries := rest }

theorem popCabinEntry_eq {e : CabinEntry} {rest : List CabinEntry}
    (h : s.resolution.cabinEntries = e :: rest) : popCabinEntry s = withEntries rest s := by
  simp only [popCabinEntry, withEntries, State.mapResolution, h, List.tail_cons]

theorem dropInvalidEntries_eq {n : Nat} (h : s.resolution.cabinEntries.length ≤ n) :
    dropInvalidEntries n s = { s with
      resolution := { s.resolution with cabinEntries := s.resolution.cabinEntries.dropWhile rowless }
      supervision := raisedTimes .droppedExceptions
        (s.resolution.cabinEntries.takeWhile rowless).length s.supervision } := by
  induction n generalizing s with
  | zero =>
    have hnil := List.eq_nil_of_length_eq_zero (Nat.le_zero.mp h)
    obtain ⟨p, tr, ⟨⟩, rest⟩ := s
    cases hnil
    rfl
  | succ n ih =>
    cases hentries : s.resolution.cabinEntries with
    | nil =>
      obtain ⟨p, tr, ⟨⟩, rest⟩ := s
      cases hentries
      rfl
    | cons e rest =>
      have hstep : dropInvalidEntries (n + 1) s = if entryWithoutEvent e then
          dropInvalidEntries n (bump .droppedExceptions (popCabinEntry s)) else s := by
        rw [dropInvalidEntries, hentries]
      rw [hstep, entryWithoutEvent_eq]
      cases hrow : rowless e with
      | false =>
        rw [List.dropWhile_cons_of_neg (by simp [hrow]), List.takeWhile_cons_of_neg (by simp [hrow]),
          ← hentries]
        rfl
      | true =>
        have hpop : bump .droppedExceptions (popCabinEntry s) = { s with
            resolution := { s.resolution with cabinEntries := rest }
            supervision := raised .droppedExceptions s.supervision } := by
          rw [bump_eq, popCabinEntry_eq hentries]
          rfl
        rw [hentries, List.length_cons] at h
        rw [if_pos rfl, hpop, ih (Nat.le_of_succ_le_succ h),
          List.dropWhile_cons_of_pos hrow, List.takeWhile_cons_of_pos hrow]
        rfl

/-- The entries at the head that no row names are counted, and the others wait. -/
theorem settleCabinEntries_eq (s : State) : settleCabinEntries s = { s with
    resolution := { s.resolution with cabinEntries := s.resolution.cabinEntries.dropWhile rowless }
    supervision := raisedTimes .droppedExceptions
      (s.resolution.cabinEntries.takeWhile rowless).length s.supervision } :=
  dropInvalidEntries_eq le_rfl

theorem applyCabinEntry_eq {act : CabinEntry → State → State} {e : CabinEntry}
    {rest : List CabinEntry} (hrun : s.start.node = .run)
    (hentries : s.resolution.cabinEntries = e :: rest) : applyCabinEntry e.kind act s
      = settleCabinEntries (if cabinEntryValid e then act e (withEntries rest s)
        else bump .droppedExceptions (withEntries rest s)) := by
  simp only [applyCabinEntry, hentries, inRun_of_run hrun, and_self, if_true,
    popCabinEntry_eq hentries]

theorem exec_exceptionEntry {i : Instr} {e : CabinEntry} {rest : List CabinEntry}
    {kind : ExceptionKind} (hrun : s.start.node = .run)
    (hentries : s.resolution.cabinEntries = e :: rest)
    (hi : i = .cabinEntryCancelled ∧ e.kind = 1 ∧ kind = .cancelled
      ∨ i = .cabinEntryHold ∧ e.kind = 2 ∧ kind = .hold
      ∨ i = .cabinEntryRedirect ∧ e.kind = 3 ∧ kind = .redirect e.target) : exec i s
      = .next (settleCabinEntries (if cabinEntryValid e
        then applyException e.cabin kind (withEntries rest s)
        else bump .droppedExceptions (withEntries rest s))) := by
  rcases hi with ⟨rfl, hkind, rfl⟩ | ⟨rfl, hkind, rfl⟩ | ⟨rfl, hkind, rfl⟩
  · exact congrArg Host.Outcome.next (hkind ▸ applyCabinEntry_eq hrun hentries)
  · exact congrArg Host.Outcome.next (hkind ▸ applyCabinEntry_eq hrun hentries)
  · exact congrArg Host.Outcome.next (hkind ▸ applyCabinEntry_eq hrun hentries)

theorem exec_clearEntry {e : CabinEntry} {rest : List CabinEntry} (hrun : s.start.node = .run)
    (hentries : s.resolution.cabinEntries = e :: rest) (hkind : e.kind = 0) :
    exec .cabinEntryClear s = .next (settleCabinEntries (if cabinEntryValid e
      then clearException e.cabin (withEntries rest s)
      else bump .droppedExceptions (withEntries rest s))) :=
  congrArg Host.Outcome.next (hkind ▸ applyCabinEntry_eq hrun hentries)

theorem cabinEntryValid_iff {e : CabinEntry} : cabinEntryValid e = true ↔
    e.kind ≤ 3 ∧ (1000 ≤ e.cabin ∧ e.cabin ≤ 19999)
      ∧ (e.kind = 3 → 1000 ≤ e.target ∧ e.target ≤ 19999) := by
  simp only [cabinEntryValid, Bool.and_eq_true, Bool.or_eq_true, decide_eq_true_eq, validCabin_iff,
    ← imp_iff_not_or, ne_eq, and_assoc]

theorem inSomeWindow_iff : inSomeWindow s c = true ↔
    ∃ w ∈ s.start.image.windows, w.base ≤ c ∧ c ≤ w.limit := by
  simp only [inSomeWindow, List.any_eq_true, decide_eq_true_eq, image_def]
  refine exists_congr fun w => and_congr_right fun _ => ?_
  omega

theorem passesFilter_of_window {i : Instr} {e : CabinEntry} {rest : List CabinEntry}
    {kind : ExceptionKind}
    (hi : i = .cabinEntryCancelled ∧ e.kind = 1 ∧ kind = .cancelled
      ∨ i = .cabinEntryHold ∧ e.kind = 2 ∧ kind = .hold
      ∨ i = .cabinEntryRedirect ∧ e.kind = 3 ∧ kind = .redirect e.target)
    (hwindow : ∃ w ∈ s.start.image.windows, (w.base ≤ e.cabin ∧ e.cabin ≤ w.limit)
      ∨ (e.kind = 3 ∧ w.base ≤ e.target ∧ e.target ≤ w.limit)) :
    passesFilter (withEntries rest s) e.cabin kind = true := by
  obtain ⟨w, hw, hin⟩ := hwindow
  refine (Bool.or_eq_true _ _).mpr ?_
  rcases hin with hcabin | ⟨hredirect, htarget⟩
  · exact .inl (inSomeWindow_iff.mpr ⟨w, hw, hcabin⟩)
  · rcases hi with ⟨-, h, -⟩ | ⟨-, h, -⟩ | ⟨-, -, rfl⟩
    · omega
    · omega
    · exact .inr (inSomeWindow_iff.mpr ⟨w, hw, htarget⟩)

/-! ## A CABIN frame -/

theorem cabinEntriesOf_places (p : List Byte) : (cabinEntriesOf p).length = p.length / 5
    ∧ ∀ i e, (cabinEntriesOf p)[i]? = some e →
      e.cabin = payloadByte p (5 * i) * 256 + payloadByte p (5 * i + 1)
        ∧ e.kind = payloadByte p (5 * i + 2)
        ∧ e.target = payloadByte p (5 * i + 3) * 256 + payloadByte p (5 * i + 4) := by
  induction p using cabinEntriesOf.induct with
  | case1 c1 c0 k t1 t0 rest ih =>
    obtain ⟨hlen, hat⟩ := ih
    refine ⟨?_, fun i e he => ?_⟩
    · simp only [cabinEntriesOf, List.length_cons, hlen]
      omega
    · cases i with
      | zero =>
        cases he
        exact ⟨rfl, rfl, rfl⟩
      | succ i => exact hat i e he
  | case2 p hshort =>
    have hnil : cabinEntriesOf p = [] := by
      unfold cabinEntriesOf
      split
      · next c1 c0 k t1 t0 rest => exact absurd rfl (hshort c1 c0 k t1 t0 rest)
      · rfl
    rw [hnil]
    refine ⟨?_, by simp⟩
    match p, hshort with
    | [], _ | [_], _ | [_, _], _ | [_, _, _], _ | [_, _, _, _], _ => simp
    | _ :: _ :: _ :: _ :: _ :: _, h => exact absurd rfl (h _ _ _ _ _ _)

/-- Settles O31: the entries of a CABIN frame wait in their order, an invalid one is counted, and a
stored one raises its requests. -/
theorem cabinEntriesAreStored : Obligations.CabinEntriesAreStored := by
  refine ⟨?_, ?_, ?_⟩
  · intro s body f hrun hf
    have hexec : exec (.cabinFrame body) s = .next (if f.source = s.start.image.manifest then
        settleCabinEntries ((endFrame s).mapResolution fun u =>
          { u with cabinEntries := u.cabinEntries ++ cabinEntriesOf f.payload })
        else bump .foreignFrames (endFrame s)) := by
      show execCabinFrame body s = _
      simp only [execCabinFrame, hf, inRun_of_run hrun, if_true]
      rfl
    rw [hexec]
    refine ⟨fun hother => ?_, fun hmanifest => ?_⟩
    · rw [if_neg hother, bump_endFrame]
    · obtain ⟨hlen, hat⟩ := cabinEntriesOf_places f.payload
      refine ⟨cabinEntriesOf f.payload, ?_, hat, ?_⟩
      · have hkind := handedFrame_length hf
        simp only [kindLengths, List.mem_cons, List.not_mem_nil, or_false] at hkind
        omega
      · rintro _ rfl
        rw [if_pos hmanifest, settleCabinEntries_eq]
        rfl
  · intro s i e rest hrun hentries hi hbad
    have hinvalid : ¬cabinEntryValid e = true := by
      rw [cabinEntryValid_iff]
      omega
    have hexec : exec i s
        = .next (settleCabinEntries (bump .droppedExceptions (withEntries rest s))) := by
      rcases hi with ⟨rfl, hkind⟩ | ⟨rfl, hkind⟩ | ⟨rfl, hkind⟩ | ⟨rfl, hkind⟩
      · rw [exec_clearEntry hrun hentries hkind, if_neg hinvalid]
      · rw [exec_exceptionEntry hrun hentries (.inl ⟨rfl, hkind, rfl⟩), if_neg hinvalid]
      · rw [exec_exceptionEntry hrun hentries (.inr (.inl ⟨rfl, hkind, rfl⟩)), if_neg hinvalid]
      · rw [exec_exceptionEntry hrun hentries (.inr (.inr ⟨rfl, hkind, rfl⟩)), if_neg hinvalid]
    rw [hexec, bump_eq, settleCabinEntries_eq]
    rfl
  · intro s i e kind rest hb hrun hentries hi hlow hhigh hwindow hroom
    obtain ⟨⟨-, -, -, -, -, -, -, -⟩, hasc, hrefs⟩ := hb
    have hvalid : cabinEntryValid e = true := by
      rw [cabinEntryValid_iff]
      omega
    have hkind : i = .cabinEntryCancelled ∧ e.kind = 1 ∧ kind = .cancelled
        ∨ i = .cabinEntryHold ∧ e.kind = 2 ∧ kind = .hold
        ∨ i = .cabinEntryRedirect ∧ e.kind = 3 ∧ kind = .redirect e.target := by tauto
    have hfilter := passesFilter_of_window (rest := rest) hkind hwindow
    have hstored : applyException e.cabin kind (withEntries rest s)
        = changeExceptions e.cabin (storeException ⟨e.cabin, kind⟩) (withEntries rest s) := by
      rw [applyException, if_pos hfilter]
      exact if_pos hroom
    have hexec := exec_exceptionEntry hrun hentries hkind
    rw [if_pos hvalid, hstored, settleCabinEntries_eq] at hexec
    obtain ⟨hexceptions, hrest⟩ :=
      changeExceptions_unit e.cabin (storeException ⟨e.cabin, kind⟩) (withEntries rest s)
    have hframe := changeExceptions_eq (s := withEntries rest s) hrefs e.cabin
      (storeException ⟨e.cabin, kind⟩)
    obtain ⟨hasked, hdue⟩ := requests_changeExceptions (s := withEntries rest s) hrefs e.cabin
      (storeException ⟨e.cabin, kind⟩)
    rw [hrest] at hexec
    refine ⟨_, hexec, fun x => ?_, ?_, rfl, ?_, hasked, hdue, congrArg (·.track) hframe,
      congrArg (·.handoff.pendingOffers) hframe, congrArg (·.position) hframe,
      congrArg (·.outlets) hframe, congrArg (·.start) hframe, congrArg (·.line) hframe⟩
    · rw [exceptionFor]
      simp only [hexceptions]
      exact find_storeException _ hasc x
    · rw [ExceptionsAscending]
      simp only [hexceptions]
      exact storeException_ascending _ hasc
    · exact congrArg _ (congrArg (·.supervision) hframe)

/-- What a removal of the entry for a cabin leaves (R48, R50). -/
theorem clearException_of_none (h : exceptionFor s c = none) : clearException c s = s := by
  rw [clearException, h]
  rfl

theorem clearException_of_some (h : (exceptionFor s c).isSome = true) :
    clearException c s = changeExceptions c (removeException c) s := if_pos h

/-- Settles O32: a removal with its requests, and an entry that a full table drops. -/
theorem exceptionsAreRemovedOrDropped : Obligations.ExceptionsAreRemovedOrDropped := by
  refine ⟨?_, ?_⟩
  · intro s i e rest hb hrun hentries hlow hhigh hi
    obtain ⟨-, -, hrefs⟩ := hb
    have hexec : exec i s
        = .next (settleCabinEntries (clearException e.cabin (withEntries rest s))) := by
      have hvalid : cabinEntryValid e = true := by
        rw [cabinEntryValid_iff]
        omega
      have hout {kind : ExceptionKind} (h : passesFilter (withEntries rest s) e.cabin kind = false) :
          applyException e.cabin kind (withEntries rest s)
            = clearException e.cabin (withEntries rest s) := by
        rw [applyException, h]
        rfl
      have hoff {x : Nat} (h : ∀ w ∈ s.start.image.windows, ¬(w.base ≤ x ∧ x ≤ w.limit)) :
          inSomeWindow (withEntries rest s) x = false := by
        rw [← Bool.not_eq_true, inSomeWindow_iff]
        rintro ⟨w, hw, hin⟩
        exact h w hw hin
      rcases hi with ⟨rfl, hkind⟩ | ⟨⟨rfl, hkind⟩ | ⟨rfl, hkind⟩, hwindow⟩
        | ⟨rfl, hkind, -, -, hwindow⟩
      · rw [exec_clearEntry hrun hentries hkind, if_pos hvalid]
      · rw [exec_exceptionEntry hrun hentries (.inl ⟨rfl, hkind, rfl⟩), if_pos hvalid, hout]
        simp [passesFilter, hoff hwindow]
      · rw [exec_exceptionEntry hrun hentries (.inr (.inl ⟨rfl, hkind, rfl⟩)), if_pos hvalid, hout]
        simp [passesFilter, hoff hwindow]
      · rw [exec_exceptionEntry hrun hentries (.inr (.inr ⟨rfl, hkind, rfl⟩)), if_pos hvalid, hout]
        simp [passesFilter, hoff fun w hw => (hwindow w hw).1, hoff fun w hw => (hwindow w hw).2]
    rw [settleCabinEntries_eq] at hexec
    cases hentry : exceptionFor s e.cabin with
    | none =>
      rw [clearException_of_none (s := withEntries rest s) hentry] at hexec
      refine ⟨_, hexec, fun x => ?_, fun _ => ⟨rfl, rfl, rfl⟩, fun h => by simp at h, rfl, rfl, rfl,
        rfl, rfl, rfl, rfl, rfl⟩
      split
      · next hx => rwa [hx]
      · rfl
    | some old =>
      have hsome : (exceptionFor (withEntries rest s) e.cabin).isSome = true := by
        show (exceptionFor s e.cabin).isSome = true
        rw [hentry]
        rfl
      obtain ⟨hexceptions, hrest⟩ :=
        changeExceptions_unit e.cabin (removeException e.cabin) (withEntries rest s)
      have hframe := changeExceptions_eq (s := withEntries rest s) hrefs e.cabin
        (removeException e.cabin)
      rw [clearException_of_some hsome, hrest] at hexec
      refine ⟨_, hexec, fun x => ?_, nofun, fun _ => requests_changeExceptions
          (s := withEntries rest s) hrefs e.cabin (removeException e.cabin), rfl, ?_,
        congrArg (·.handoff.pendingOffers) hframe, congrArg (·.track) hframe,
        congrArg (·.position) hframe, congrArg (·.outlets) hframe, congrArg (·.start) hframe,
        congrArg (·.line) hframe⟩
      · rw [exceptionFor]
        simp only [hexceptions]
        exact find_removeException _ _ x
      · exact congrArg _ (congrArg (·.supervision) hframe)
  · intro s i e rest hrun hentries hlow hhigh hi hwindow hnone hfull
    obtain ⟨kind, hkind⟩ : ∃ kind : ExceptionKind, i = .cabinEntryCancelled ∧ e.kind = 1
        ∧ kind = .cancelled ∨ i = .cabinEntryHold ∧ e.kind = 2 ∧ kind = .hold
        ∨ i = .cabinEntryRedirect ∧ e.kind = 3 ∧ kind = .redirect e.target := by
      rcases hi with h | h | h
      · exact ⟨_, .inl ⟨h.1, h.2, rfl⟩⟩
      · exact ⟨_, .inr (.inl ⟨h.1, h.2, rfl⟩)⟩
      · exact ⟨_, .inr (.inr ⟨h.1, h.2.1, rfl⟩)⟩
    have hvalid : cabinEntryValid e = true := by
      rw [cabinEntryValid_iff]
      omega
    have hfilter := passesFilter_of_window (rest := rest) hkind hwindow
    have hnoPlace : ¬((exceptionFor (withEntries rest s) e.cabin).isSome = true
        ∨ (withEntries rest s).resolution.exceptions.length < 256) := by
      rintro (h | h)
      · have hsome : (exceptionFor s e.cabin).isSome = true := h
        rw [hnone] at hsome
        cases hsome
      · exact absurd h (not_lt.mpr hfull)
    have happly : applyException e.cabin kind (withEntries rest s)
        = setExceptionOverrun (bump .droppedExceptions (withEntries rest s)) := by
      rw [applyException, if_pos hfilter]
      exact if_neg hnoPlace
    rw [exec_exceptionEntry hrun hentries hkind, if_pos hvalid, happly, bump_eq,
      settleCabinEntries_eq]
    rfl

end

end Sys2Proof.Machine

/-! # The end of a resolution (R52, R56, R57; log entry 22) -/

namespace Sys2Proof.Machine

section
variable {s t u : State} {ref : BagRef} {r : Record} {v : Service}

/-! ## Requests to a unit in service (R58) -/

theorem raiseRequest_of_busy (hexp : inExpected s ref = none) (hbusy : s.resolution.service ≠ none) :
    (raiseRequest ref s).resolution = { s.resolution with
      requests := s.resolution.requests
        ++ if ref ∉ s.resolution.requests then [ref] else [] } := by
  by_cases hr : ref ∈ s.resolution.requests
  · rw [raiseRequest_of_waiting hexp hr, if_neg (not_not.mpr hr), List.append_nil]
  · rw [raiseRequest_of_new hexp hr, if_pos hr]
    exact congrArg State.resolution (startResolution_of_busy (s := s.mapResolution fun u =>
      { u with requests := u.requests ++ [ref] }) hbusy)

theorem markStray_of_busy {cause : StrayCause} (hr : heldRecord s ref = some r)
    (hexp : inExpected s ref = none) (hstate : r.state = .onBelt)
    (hbusy : s.resolution.service ≠ none) :
    (markStray cause ref s).resolution = { s.resolution with
      requests := s.resolution.requests
        ++ if r.stray = none ∧ ref ∉ s.resolution.requests then [ref] else [] } := by
  by_cases hstray : r.stray = none
  · have hmark := markStray_of_unmarked (cause := cause) hr hstray
    rw [hstate] at hmark
    rw [hmark]
    refine (raiseRequest_of_busy (s := updateRecord ref (fun r => { r with stray := some cause }) s)
      ?_ hbusy).trans ?_
    · rw [← Option.not_isSome_iff_eq_none, inExpected_isSome_updateRecord (by intro _; rfl), hexp]
      simp
    · simp only [hstray, true_and]
      rfl
  · rw [markStray_of_stray hr hstray]
    simp [hstray]

/-! ## The result that is written -/

/-- A record with the mark that a completion sets (R17, R56, R59). -/
def markWritten (mark : Option StrayCause) (x : Record) : Record :=
  match mark with
  | none => x
  | some cause => if x.state = .expected then markedDue cause x else marked cause x

theorem markWritten_ref (mark : Option StrayCause) (x : Record) : (markWritten mark x).ref = x.ref := by
  cases mark with
  | none => rfl
  | some cause =>
    unfold markWritten
    dsimp only
    split
    · exact (markedDue_keeps cause x).1
    · rfl

/-- A record with the verdict of a completion, READY where it was RESOLVING. -/
def written (verdict : Verdict) (x : Record) : Record := becomeReady { x with verdict }

theorem written_ref (verdict : Verdict) (x : Record) : (written verdict x).ref = x.ref :=
  (becomeReady_keeps { x with verdict }).1

theorem written_state (verdict : Verdict) (x : Record) : (written verdict x).state = x.state :=
  (becomeReady_keeps { x with verdict }).2.1

/-- A mark written to a held record. -/
theorem writeMark_eq (mark : Option StrayCause) (hrefs : RefsHeldOnce s)
    (hr : heldRecord s ref = some r) (hexp : (inExpected s ref).isSome = true ↔ r.state = .expected) :
    writeMark mark ref s = { updateRecord ref (markWritten mark) s with
      resolution := (writeMark mark ref s).resolution } := by
  cases mark with
  | none =>
    have hsame (l : List Record) : updateIn l ref (markWritten none) = l :=
      updateIn_fixed fun _ _ _ => rfl
    rw [updateRecord, hsame, hsame, hsame]
    rfl
  | some cause =>
    have hone : ∀ x ∈ heldRecords s, x.ref = ref → x.state = r.state := fun x hx hxr => by
      rw [eq_of_heldRecord hrefs hr hx hxr]
    by_cases hstate : r.state = .expected
    · obtain ⟨x, hx⟩ := Option.isSome_iff_exists.mp (hexp.mpr hstate)
      obtain ⟨htable, hpend⟩ := not_elsewhere_of_inExpected hrefs (hexp.mpr hstate)
      have hfun : updateIn s.handoff.expected ref (markWritten (some cause))
          = updateIn s.handoff.expected ref (markedDue cause) :=
        updateIn_congr fun y hy hyr =>
          if_pos ((hone y (mem_expected_held hy) hyr).trans hstate)
      have hxstate : x.state = .expected :=
        (hone x (mem_expected_held (inExpected_mem hx)) (findIn_ref hx)).trans hstate
      rw [updateRecord, updateIn_absent _ (findIn_eq_none.mp htable),
        updateIn_absent _ (findIn_eq_none.mp hpend), hfun]
      have hmark := markStray_in_expected (cause := cause) hrefs hx hxstate
      have hunit : (markStray cause ref s).resolution = s.resolution := by rw [hmark]
      show markStray cause ref s = { s with
        handoff := _, resolution := (markStray cause ref s).resolution }
      rw [hunit, hmark]
    · have hnone : inExpected s ref = none :=
        Option.not_isSome_iff_eq_none.mp fun h => hstate (hexp.mp h)
      have hfun (l : List Record) (hl : ∀ x ∈ l, x ∈ heldRecords s) :
          updateIn l ref (markWritten (some cause)) = updateIn l ref (marked cause) :=
        updateIn_congr fun y hy hyr => if_neg fun h => hstate ((hone y (hl y hy) hyr).symm.trans h)
      rw [updateRecord_of_not_expected hnone, hfun _ fun x => mem_table_held,
        hfun _ fun x => mem_pending_held]
      exact markStray_outside_expected hrefs hr hnone

theorem settleArming_of_none (h : ∀ x, inTable s ref = some x → armingReached s x = none) :
    settleArming ref s = s := by
  cases hr : inTable s ref with
  | none => simp [settleArming, hr]
  | some x => simp [settleArming, hr, h x hr]

/-- The result as it stands before an arming that it may bring. -/
def resultMarked (v : Service) (ref : BagRef) (s : State) : State :=
  writeMark v.mark ref (updateRecord ref (written v.verdict) s)

theorem writeResult_eq (howner : v.owner = some ref) (hr : heldRecord s ref = some r)
    (hwritten : resultWritten r = true) :
    writeResult v s = settleArming ref (resultMarked v ref s) := by
  simp only [writeResult, howner, hr, hwritten, if_true]
  rfl

theorem resultMarked_eq (hrefs : RefsHeldOnce s) (hr : heldRecord s ref = some r)
    (hexp : (inExpected s ref).isSome = true ↔ r.state = .expected) :
    resultMarked v ref s = { updateRecord ref
        (fun x => markWritten v.mark (written v.verdict x)) s with
      resolution := (resultMarked v ref s).resolution } := by
  have hf : ∀ x, (written v.verdict x).ref = x.ref := written_ref v.verdict
  have hin : heldRecord (updateRecord ref (written v.verdict) s) ref = some (written v.verdict r) := by
    rw [heldRecord_updateRecord_same hf, hr]
    rfl
  have hmark := writeMark_eq v.mark ((sameRefs_updateRecord ref hf).refsHeldOnce hrefs) hin (by
    rw [inExpected_isSome_updateRecord hf, written_state]
    exact hexp)
  rwa [updateRecord_updateRecord ref (written v.verdict) (markWritten v.mark) _ hf] at hmark

theorem keepsRequests_resultMarked (v : Service) (ref : BagRef) (s : State) :
    KeepsRequests s (resultMarked v ref s) := by
  refine (keepsRequests_updateRecord ref (written_ref v.verdict) s).trans ?_
  unfold resultMarked writeMark
  split
  · exact keepsRequests_markStray _ _ _
  · exact .refl _

theorem heldRecord_resultMarked (hrefs : RefsHeldOnce s) (hr : heldRecord s ref = some r)
    (hexp : (inExpected s ref).isSome = true ↔ r.state = .expected) :
    heldRecord (resultMarked v ref s) ref = some (markWritten v.mark (written v.verdict r))
      ∧ ∀ other, other ≠ ref → heldRecord (resultMarked v ref s) other = heldRecord s other := by
  have hf : ∀ y, (markWritten v.mark (written v.verdict y)).ref = y.ref := fun y =>
    (markWritten_ref _ _).trans (written_ref _ _)
  rw [resultMarked_eq hrefs hr hexp]
  refine ⟨?_, fun other hother => ?_⟩
  · show heldRecord (updateRecord ref _ s) ref = _
    rw [heldRecord_updateRecord_same hf, hr]
    rfl
  · exact heldRecord_updateRecord_other hf hother

/-- The unit with no resolution in service. -/
def serviceOver (s : State) : State := s.mapResolution fun u => { u with service := none }

/-- The unit once a result is dealt with: it is idle, and takes the request at the head (R52). -/
def nextTaken (s : State) : State := startResolution (serviceOver s)

theorem exec_resolutionComplete (hv : s.resolution.service = some v) :
    exec .resolutionComplete s = .next (nextTaken (writeResult v s)) := by
  show execResolutionComplete s = _
  rw [execResolutionComplete, hv]
  rfl

theorem nextTaken_eq (s : State) : nextTaken s = { s with resolution := (nextTaken s).resolution } := by
  conv_lhs => rw [nextTaken, startResolution_eq]
  rfl

theorem nextTaken_exceptions (s : State) :
    (nextTaken s).resolution.exceptions = s.resolution.exceptions :=
  (keepsRequests_startResolution _).exceptions

theorem nextTaken_of_none (h : s.resolution.requests = []) :
    (nextTaken s).resolution.service = none ∧ (nextTaken s).resolution.requests = [] := by
  rw [nextTaken, startResolution_of_quiet (s := serviceOver s) h]
  exact ⟨rfl, h⟩

theorem nextTaken_of_next {rest : List BagRef} (h : s.resolution.requests = ref :: rest)
    (hr : heldRecord s ref = some r) : (nextTaken s).resolution.requests = rest
      ∧ (nextTaken s).resolution.service = some ⟨some ref, (resolve s r).1, (resolve s r).2⟩ := by
  rw [nextTaken, startResolution_of_idle (s := serviceOver s) rfl h]
  refine ⟨rfl, ?_⟩
  show (heldRecord s ref).map _ = _
  rw [hr]
  rfl

/-! ## The record as the result leaves it -/

theorem markWritten_fields (mark : Option StrayCause) (x : Record) :
    (markWritten mark x).stray = (if x.stray = none then mark else x.stray)
      ∧ (markWritten mark x).verdict
        = (if x.state = .expected ∧ x.stray = none ∧ mark ≠ none then .unresolved else x.verdict)
      ∧ (markWritten mark x).ready = x.ready ∧ (markWritten mark x).discardTimer = x.discardTimer
      ∧ (markWritten mark x).tag = x.tag ∧ (markWritten mark x).state = x.state
      ∧ (markWritten mark x).lead = x.lead ∧ (markWritten mark x).trail = x.trail
      ∧ (markWritten mark x).refusals = x.refusals
      ∧ (markWritten mark x).verdictFixed = x.verdictFixed := by
  cases mark with
  | none => by_cases hstray : x.stray = none <;> simp [markWritten, hstray]
  | some cause =>
    by_cases hstate : x.state = .expected
    · by_cases hstray : x.stray = none <;> simp [markWritten, markedDue, hstate, hstray]
    · simp [markWritten, marked, hstate]

theorem written_eq (verdict : Verdict) (x : Record) : written verdict x = { x with
    verdict
    ready := x.ready || decide (x.state = .pending)
    discardTimer := if x.state = .pending ∧ x.ready = false then some 0 else x.discardTimer } := by
  by_cases hstate : x.state = .pending
  · cases hready : x.ready <;> simp [written, becomeReady, hstate, hready]
  · simp [written, becomeReady, hstate]

/-! ## A result with an arming (R68; log entry 22) -/

theorem takeFire_record (k : OutletNo) (hr : inTable s ref = some r) (hfixed : r.verdictFixed = true) :
    (∃ r', inTable (takeFire k ref s) ref = some r' ∧ r'.verdictFixed = true ∧ r'.stray = r.stray)
      ∧ (takeFire k ref s).resolution = s.resolution := by
  unfold takeFire
  split
  · exact ⟨⟨_, (inTable_of_updateIn (f := fun x =>
      { x with state := .diverting, confirmTimer := some 0 }) (fun _ => rfl) rfl hr).1, hfixed, rfl⟩, rfl⟩
  · rw [refuse_eq_updateRecord]
    exact ⟨⟨_, (inTable_of_updateIn (refusedAs_ref s.start.station _) rfl hr).1, rfl, rfl⟩, rfl⟩

/-- What an arming leaves in its record, and the request that a new mark adds. -/
theorem takeArming_of_busy (k : OutletNo) (hrefs : RefsHeldOnce s) (hr : inTable s r.ref = some r)
    (hbusy : s.resolution.service ≠ none) :
    ∃ r', inTable (takeArming k r s) r.ref = some r' ∧ r'.verdictFixed = true
      ∧ (r.stray ≠ none → r'.stray ≠ none)
      ∧ (takeArming k r s).resolution = { s.resolution with
        requests := s.resolution.requests
          ++ if r.stray = none ∧ r'.stray ≠ none ∧ r.ref ∉ s.resolution.requests then [r.ref]
            else [] } := by
  have hquiet {r' : Record} (hstray : r'.stray = r.stray) :
      s.resolution = { s.resolution with
        requests := s.resolution.requests
          ++ if r.stray = none ∧ r'.stray ≠ none ∧ r.ref ∉ s.resolution.requests then [r.ref]
            else [] } := by
    rw [if_neg, List.append_nil]
    rintro ⟨hnone, hsome, -⟩
    exact hsome (hstray.trans hnone)
  unfold takeArming
  cases hresult : armingResult s k r with
  | oversize =>
    have hrefuse := refuse_eq_updateRecord .oversize r.ref s
    have htable : (refuse .oversize r.ref s).track.table
        = updateIn s.track.table r.ref (refusedAs s.start.station .oversize) :=
      congrArg (·.track.table) hrefuse
    have hin := (inTable_of_updateIn (refusedAs_ref _ _) htable hr).1
    have hkeeps := keepsRequests_refuse .oversize r.ref s
    have hrefs' := hkeeps.refs.refsHeldOnce hrefs
    have hunit : (refuse .oversize r.ref s).resolution = s.resolution :=
      congrArg (·.resolution) hrefuse
    obtain ⟨-, hexp⟩ := not_inbound_of_inTable hrefs' (ref := r.ref) (by rw [hin]; rfl)
    have hmark := markStray_of_busy (cause := .oversize) (heldRecord_of_inTable hin) hexp rfl
      (by rwa [hunit])
    have hmarked := markStray_of_inTable (cause := .oversize) hrefs' hin
    refine ⟨_, (inTable_of_updateIn (marked_ref _) (congrArg (·.track.table) hmarked) hin).1, rfl,
      fun h => ?_, ?_⟩
    · rw [marked_of_stray (x := refusedAs s.start.station .oversize r) h]
      exact h
    · rw [hunit] at hmark
      refine hmark.trans ?_
      by_cases hstray : r.stray = none
      · simp [marked, refusedAs, hstray]
      · simp [refusedAs, hstray]
  | gap =>
    have hrefuse := refuse_eq_updateRecord .gap r.ref s
    exact ⟨_, (inTable_of_updateIn (refusedAs_ref _ _) (congrArg (·.track.table) hrefuse) hr).1, rfl,
      id, (congrArg (·.resolution) hrefuse).trans (hquiet rfl)⟩
  | tooLate =>
    exact ⟨_, (inTable_of_updateIn (f := fun x =>
      { x with verdict := .pass, verdictFixed := true }) (fun _ => rfl) rfl hr).1, rfl, id, hquiet rfl⟩
  | armed fire =>
    have hin := (inTable_of_updateIn (f := fun x =>
      { x with state := .armed, verdictFixed := true, firePosition := some fire }) (fun _ => rfl)
      (rfl : (updateRecord r.ref (fun r => { r with
        state := .armed, verdictFixed := true, firePosition := some fire }) s).track.table = _) hr).1
    dsimp only
    split
    · obtain ⟨⟨r', hr', hfixed, hstray⟩, hunit⟩ := takeFire_record k hin rfl
      exact ⟨r', hr', hfixed, fun h => by rwa [hstray], hunit.trans (hquiet hstray)⟩
    · exact ⟨_, hin, rfl, id, hquiet rfl⟩

theorem apart_of_resolution {unit : ResolutionUnit} (h : t = { s with resolution := unit }) :
    t = { s with resolution := t.resolution } := by
  rw [h]

theorem takeFire_congr (k : OutletNo) (ref : BagRef) (s : State) (unit : ResolutionUnit) :
    takeFire k ref { s with resolution := unit } = { takeFire k ref s with resolution := unit } := by
  by_cases h : isOpen s k = true ∧ (s.outlets.get k).pusher = .home
  · have hleft : takeFire k ref { s with resolution := unit } = _ := if_pos h
    have hright : takeFire k ref s = _ := if_pos h
    rw [hleft, hright]
    rfl
  · have hleft : takeFire k ref { s with resolution := unit } = _ := if_neg h
    have hright : takeFire k ref s = _ := if_neg h
    rw [hleft, hright, refuse_eq_updateRecord, refuse_eq_updateRecord]
    rfl

/-- An arming does not depend on the Resolution Unit. -/
theorem takeArming_congr (k : OutletNo) (hrefs : RefsHeldOnce s) (hr : inTable s r.ref = some r)
    (unit : ResolutionUnit) : takeArming k r { s with resolution := unit }
      = { takeArming k r s with
        resolution := (takeArming k r { s with resolution := unit }).resolution } := by
  have hsame : armingResult { s with resolution := unit } k r = armingResult s k r := rfl
  unfold takeArming
  rw [hsame]
  cases hresult : armingResult s k r with
  | oversize =>
    have hleft := refuse_oversize_eq (s := { s with resolution := unit }) hrefs hr
    have hright := refuse_oversize_eq hrefs hr
    dsimp only
    conv_lhs => rw [hleft]
    conv_rhs => rw [hright]
  | gap =>
    dsimp only
    rw [refuse_eq_updateRecord, refuse_eq_updateRecord]
    rfl
  | tooLate => rfl
  | armed fire =>
    dsimp only
    by_cases hreached : reached s fire = true
    · have hif {x y : State} : (if reached { s with resolution := unit } fire then x else y) = x :=
        if_pos hreached
      have hfire := takeFire_congr k r.ref (updateRecord r.ref (fun r => { r with
        state := .armed, verdictFixed := true, firePosition := some fire }) s) unit
      rw [hif, if_pos hreached]
      exact apart_of_resolution hfire
    · have hif {x y : State} : (if reached { s with resolution := unit } fire then x else y) = y :=
        if_neg hreached
      rw [hif, if_neg hreached]
      rfl

theorem armingReached_congr (x : Record) (hposition : t.position = s.position)
    (hopen : t.track.openMerge = s.track.openMerge) (hstart : t.start = s.start) :
    armingReached t x = armingReached s x := by
  obtain ⟨_, ⟨_, _, _, _, _, _⟩, _, _, _, _, _, _, _, _⟩ := s
  obtain ⟨_, ⟨_, _, _, _, _, _⟩, _, _, _, _, _, _, _, _⟩ := t
  cases hposition
  cases hopen
  cases hstart
  rfl

theorem exec_resolutionComplete_quiet (hb : BagsKept s) (hv : s.resolution.service = some v)
    (howner : v.owner = some r.ref) (hr : heldRecord s r.ref = some r)
    (hwritten : resultWritten r = true)
    (hexp : (inExpected s r.ref).isSome = true ↔ r.state = .expected)
    (hquiet : r.state = .onBelt → armingReached s { r with verdict := v.verdict } = none) :
    exec .resolutionComplete s = .next (nextTaken (resultMarked v r.ref s)) := by
  obtain ⟨-, -, hrefs⟩ := hb
  have heq := resultMarked_eq (v := v) hrefs hr hexp
  rw [exec_resolutionComplete hv, writeResult_eq howner hr hwritten, settleArming_of_none]
  intro x hx
  have hf : ∀ y, (markWritten v.mark (written v.verdict y)).ref = y.ref := fun y =>
    (markWritten_ref _ _).trans (written_ref _ _)
  have hxeq : x = markWritten v.mark (written v.verdict r) := by
    have hin : heldRecord (resultMarked v r.ref s) r.ref
        = some (markWritten v.mark (written v.verdict r)) := by
      exact (heldRecord_resultMarked hrefs hr hexp).1
    rw [heldRecord_of_inTable hx] at hin
    exact Option.some.inj hin
  obtain ⟨-, hverdict, -, -, -, hstate, hlead, -, -, hfixed⟩ :=
    markWritten_fields v.mark (written v.verdict r)
  rw [← hxeq, written_eq] at hverdict hstate hlead hfixed
  refine Option.eq_none_iff_forall_ne_some.mpr fun k hk => ?_
  rw [heq] at hk
  obtain ⟨houtlet, honBelt, hnotFixed, hopen, p, hp, hreached⟩ := armingReached_eq_some_iff.mp hk
  have hrstate : r.state = .onBelt := hstate.symm.trans honBelt
  have hxref : x.ref = r.ref := findIn_ref hx
  rw [if_neg (by simp [hrstate])] at hverdict
  have hreached' : armingReached s { r with verdict := v.verdict } = some k :=
    armingReached_eq_some_iff.mpr ⟨hverdict ▸ houtlet, hrstate, hfixed.symm.trans hnotFixed,
      hxref ▸ hopen, p, hlead.symm.trans hp, hreached⟩
  rw [hquiet hrstate] at hreached'
  cases hreached'

theorem settleArming_of_some {k : OutletNo} (hr : inTable s ref = some r)
    (hk : armingReached s r = some k) : settleArming ref s = takeArming k r s := by
  simp [settleArming, hr, hk]

theorem resolve_congr (x : Record) (hexceptions : t.resolution.exceptions = s.resolution.exceptions)
    (hstart : t.start = s.start) : resolve t x = resolve s x := by
  obtain ⟨_, _, ⟨_, _, _, _⟩, _, _, _, _, _, _, _⟩ := s
  obtain ⟨_, _, ⟨_, _, _, _⟩, _, _, _, _, _, _, _⟩ := t
  cases hexceptions
  cases hstart
  rfl

/-- The mark of a result for a record on the belt, and the request it adds. -/
theorem resultMarked_on_belt (hrefs : RefsHeldOnce s) (hr : inTable s r.ref = some r)
    (hstate : r.state = .onBelt) (hbusy : s.resolution.service ≠ none) :
    ∃ unit, resultMarked v r.ref s = { s with
        track := { s.track with table := updateIn s.track.table r.ref fun x =>
          { x with verdict := v.verdict, stray := if x.stray = none then v.mark else x.stray } }
        resolution := unit }
      ∧ unit = { s.resolution with
        requests := s.resolution.requests
          ++ if r.stray = none ∧ v.mark ≠ none ∧ r.ref ∉ s.resolution.requests then [r.ref]
            else [] } := by
  obtain ⟨-, hexp⟩ := not_inbound_of_inTable hrefs (ref := r.ref) (by rw [hr]; rfl)
  have hheld := heldRecord_of_inTable hr
  have heq := resultMarked_eq (v := v) hrefs hheld (by simp [hexp, hstate])
  have hwrittenEq : written v.verdict r = { r with verdict := v.verdict } :=
    if_neg (by simp [hstate])
  have hrecord : markWritten v.mark (written v.verdict r)
      = { r with verdict := v.verdict, stray := if r.stray = none then v.mark else r.stray } := by
    rw [hwrittenEq]
    cases hmark : v.mark with
    | none => cases hstray : r.stray <;> simp [markWritten, ← hstray]
    | some cause => simp [markWritten, marked, hstate]
  have htable : updateIn s.track.table r.ref (fun x => markWritten v.mark (written v.verdict x))
      = updateIn s.track.table r.ref fun x =>
        { x with verdict := v.verdict, stray := if x.stray = none then v.mark else x.stray } := by
    refine updateIn_congr fun x hx hxr => ?_
    rw [eq_of_heldRecord hrefs hheld (mem_table_held hx) hxr]
    exact hrecord
  rw [updateRecord_of_inTable hrefs (by rw [hr]; rfl), htable] at heq
  refine ⟨_, heq, ?_⟩
  have hf := written_ref v.verdict
  have hin : inTable (updateRecord r.ref (written v.verdict) s) r.ref
      = some { r with verdict := v.verdict } := by
    rw [inTable_updateRecord_same hf, hr]
    exact congrArg some hwrittenEq
  cases hmark : v.mark with
  | none => simp [resultMarked, writeMark, hmark]
  | some cause =>
    have hnone : inExpected (updateRecord r.ref (written v.verdict) s) r.ref = none := by
      rw [inExpected_updateRecord_same hf, hexp]
      rfl
    have hunit := markStray_of_busy (cause := cause) (heldRecord_of_inTable hin) hnone hstate hbusy
    rw [resultMarked, hmark]
    show (markStray cause r.ref _).resolution = _
    refine hunit.trans ?_
    by_cases hstray : r.stray = none <;> simp [hstray]

/-- Settles O30: a result is written, discarded, or written with the arming that it brings. -/
theorem completionWritesOrDiscards : Obligations.CompletionWritesOrDiscards := by
  refine ⟨?_, ?_, ?_⟩
  · intro s v r hb hv howner hr hcase hexp
    have hwritten : resultWritten r = true := by
      rcases hcase with h | ⟨h, hdue⟩ | ⟨h, hfixed⟩ | ⟨h, hfixed, -⟩ <;> simp_all [resultWritten]
    have hexec := exec_resolutionComplete_quiet hb hv howner hr hwritten hexp fun hstate => by
      rcases hcase with h | ⟨h, -⟩ | ⟨h, -⟩ | ⟨-, -, h⟩
      · rw [hstate] at h; cases h
      · rw [hstate] at h; cases h
      · rw [hstate] at h; cases h
      · exact h
    obtain ⟨-, -, hrefs⟩ := hb
    obtain ⟨hin, hothers⟩ := heldRecord_resultMarked (v := v) hrefs hr hexp
    obtain ⟨hstray, hverdict, hready, htimer, htag, hstate, hlead, htrail, hrefusals, hfixed⟩ :=
      markWritten_fields v.mark (written v.verdict r)
    rw [written_eq] at hin hstray hverdict hready htimer htag hstate hlead htrail hrefusals hfixed
    have heq := resultMarked_eq (v := v) hrefs hr hexp
    have hnext := nextTaken_eq (resultMarked v r.ref s)
    refine ⟨_, _, hexec, ?_, hstray, hverdict, hready, htimer,
      htag, hstate, hlead, htrail, hrefusals, hfixed, fun other hother => ?_, ?_,
      (congrArg (·.supervision) hnext).trans (congrArg (·.supervision) heq),
      (congrArg (·.outlets) hnext).trans (congrArg (·.outlets) heq),
      (congrArg (·.position) hnext).trans (congrArg (·.position) heq),
      (congrArg (·.start) hnext).trans (congrArg (·.start) heq),
      (congrArg (·.line) hnext).trans (congrArg (·.line) heq)⟩
    · rw [hnext]
      exact hin
    · rw [hnext]
      exact hothers other hother
    · exact (nextTaken_exceptions _).trans (keepsRequests_resultMarked v r.ref s).exceptions
  · intro s v hv hdiscard
    have hsame : writeResult v s = s := by
      unfold writeResult
      cases howner : v.owner with
      | none => rfl
      | some ref =>
        cases hr : heldRecord s ref with
        | none => simp [hr]
        | some r =>
          have hnot : resultWritten r = false := by
            rcases hdiscard ref r howner hr with h | h | ⟨h, hdue⟩ | ⟨h | h, hfixed⟩ <;>
              simp_all [resultWritten]
          simp [hr, hnot]
    have hexec := exec_resolutionComplete hv
    rw [hsame] at hexec
    exact ⟨_, hexec, nextTaken_eq s, nextTaken_exceptions s, nextTaken_of_none,
      fun ref rest r hrest hr => nextTaken_of_next hrest hr⟩
  · rintro s _ v r k hb hrun hv howner hr hstate hfixed hk rfl
    obtain ⟨-, -, hrefs⟩ := hb
    have hbusy : s.resolution.service ≠ none := by rw [hv]; simp
    obtain ⟨unit, hmarked, hunit⟩ := resultMarked_on_belt (v := v) hrefs hr hstate hbusy
    obtain ⟨w, hw⟩ : ∃ w, w = { s with track := { s.track with
        table := updateIn s.track.table r.ref fun x =>
          { x with verdict := v.verdict, stray := if x.stray = none then v.mark else x.stray } } } :=
      ⟨_, rfl⟩
    obtain ⟨x, hx⟩ : ∃ x, x = { r with
        verdict := v.verdict, stray := if r.stray = none then v.mark else r.stray } := ⟨_, rfl⟩
    have hin : inTable w x.ref = some x := by
      rw [hw, hx]
      exact (inTable_of_updateIn (s := s) (f := fun x => { x with
        verdict := v.verdict, stray := if x.stray = none then v.mark else x.stray })
        (fun _ => rfl) rfl hr).1
    have hkw : armingReached w x = some k := by
      rw [hw, hx]
      exact hk
    have hmarked' : resultMarked v r.ref s = { w with resolution := unit } := by
      rw [hmarked, hw]
    have hxref : x.ref = r.ref := by rw [hx]
    have hstart : w.start = s.start := by rw [hw]
    have hwunit : w.resolution = s.resolution := by rw [hw]
    have hwrefs : RefsHeldOnce w := by
      rw [hw]
      exact SameRefs.refsHeldOnce ⟨updateIn_map_ref _ _ _ fun _ => rfl, rfl, rfl⟩ hrefs
    have hwbusy : w.resolution.service ≠ none := by rwa [hwunit]
    -- the arming as the command takes it, and as the completion takes it
    have hunitBusy : unit.service ≠ none := by
      rw [hunit]
      exact hbusy
    obtain ⟨r', hr', hr'fixed, -, -⟩ := takeArming_of_busy k hwrefs hin hwbusy
    have hapart := takeArming_congr k hwrefs hin unit
    obtain ⟨b, hb⟩ : ∃ b, b = takeArming k x { w with resolution := unit } := ⟨_, rfl⟩
    obtain ⟨y, hy, -, hkept, hbunit⟩ :=
      takeArming_of_busy (s := { w with resolution := unit }) k hwrefs hin hunitBusy
    rw [← hb] at hapart hy hbunit
    have hyr : y = r' := by
      rw [hapart] at hy
      exact Option.some.inj (hy.symm.trans hr')
    have hexec : exec .resolutionComplete s = .next (nextTaken b) := by
      rw [exec_resolutionComplete hv,
        writeResult_eq howner (heldRecord_of_inTable hr) (by simp [resultWritten, hstate, hfixed]),
        hmarked', settleArming_of_some (s := { w with resolution := unit }) (hxref ▸ hin) hkw, ← hb]
    have hnext := nextTaken_eq b
    refine ⟨takeArming k x w, r', nextTaken b, ?_, hxref ▸ hr', hr'fixed, hexec, ?_, ?_, ?_⟩
    · rw [← hw, ← hxref]
      exact exec_arming (by rwa [hstart]) hin hkw
    · exact apart_of_resolution (hnext.trans
        (congrArg (fun z : State => { z with resolution := (nextTaken b).resolution }) hapart))
    · rw [nextTaken_exceptions, hbunit, hunit]
    · rintro _ rfl
      have hwaiting : b.resolution.requests = s.resolution.requests
          ++ if r.stray = none ∧ r'.stray ≠ none ∧ r.ref ∉ s.resolution.requests then [r.ref]
            else [] := by
        rw [hbunit, hunit, hxref, ← hyr]
        have hxstray : x.stray = if r.stray = none then v.mark else r.stray := by rw [hx]
        by_cases hstray : r.stray = none
        · rw [if_pos hstray] at hxstray
          cases hmark : v.mark with
          | none => simp [hxstray, hstray, hmark]
          | some cause =>
            have hyStray : y.stray ≠ none := hkept (by rw [hxstray, hmark]; simp)
            simp [hxstray, hstray, hmark, hyStray]
        · rw [if_neg hstray] at hxstray
          simp [hxstray, hstray]
      refine ⟨fun h => nextTaken_of_none (hwaiting.trans h), fun ref rest z hz hheld => ?_⟩
      have hheldb : heldRecord b ref = some z := by
        rw [hapart]
        exact hheld
      have htaken := nextTaken_of_next (hwaiting.trans hz) hheldb
      rwa [resolve_congr (s := s) z (by rw [hbunit, hunit]) (by rw [hb]; simp [hstart])] at htaken

end

end Sys2Proof.Machine

/-! # A record that leaves (R20, R21, R60), the offer that passes on (R128) and the crowd (R158) -/

namespace Sys2Proof.Machine

section
variable {s t u : State} {ref other : BagRef} {r : Record}

/-! ## The end of an offer -/

theorem endOfferOf_of_held {o : Outbound} (ho : s.handoff.outbound = some o) (hr : o.ref = ref) :
    endOfferOf ref s = { s with
      line := (endOfferFrame s).line
      handoff := { s.handoff with outbound := none } } := by
  unfold endOfferOf
  rw [ho]
  refine (if_pos hr).trans ?_
  rw [endOfferFrame_eq]
  rfl

theorem endOfferOf_of_other (h : ∀ o, s.handoff.outbound = some o → o.ref ≠ ref) :
    endOfferOf ref s = s := by
  unfold endOfferOf
  cases ho : s.handoff.outbound with
  | none => rfl
  | some o => exact if_neg (h o ho)

theorem endOfferOf_outbound (ref : BagRef) (s : State) :
    (endOfferOf ref s).handoff.outbound
      = s.handoff.outbound.filter fun o => decide (o.ref ≠ ref) := by
  cases ho : s.handoff.outbound with
  | none =>
    rw [endOfferOf_of_other (by simp [ho])]
    exact ho
  | some o =>
    by_cases hr : o.ref = ref
    · rw [endOfferOf_of_held ho hr]
      simp [Option.filter, hr]
    · rw [endOfferOf_of_other (by simp [ho, hr])]
      simp [Option.filter, hr, ho]

theorem withdrawOffer_line_congr (hline : t.line = s.line) :
    (withdrawOffer t).line = (withdrawOffer s).line := by
  unfold withdrawOffer
  rw [hline]
  cases s.line.transmitter with
  | waitGap h => by_cases hsrc : h.source = .offer <;> simp [hsrc, hline, State.mapLine]
  | backoff h _ _ => by_cases hsrc : h.source = .offer <;> simp [hsrc, hline, State.mapLine]
  | idle => exact hline
  | sending _ => exact hline

/-- The end of an offer's frame depends on the offer and the line alone. -/
theorem endOfferFrame_line_congr (hline : t.line = s.line)
    (hout : t.handoff.outbound = s.handoff.outbound) :
    (endOfferFrame t).line = (endOfferFrame s).line := by
  unfold endOfferFrame
  rw [hout]
  cases s.handoff.outbound with
  | none => exact hline
  | some o =>
    have hframe : holdsFrameOf o t = holdsFrameOf o s := by
      simp only [holdsFrameOf, hline]
    dsimp only
    rw [hframe]
    cases holdsFrameOf o s with
    | true => exact withdrawOffer_line_congr hline
    | false => exact hline

/-! ## Leaving -/

theorem leave_track (ref : BagRef) (s : State) : (leave ref s).track = { s.track with
    table := s.track.table.filter fun x => decide (x.ref ≠ ref)
    openEntry := forget ref s.track.openEntry
    openMerge := forget ref s.track.openMerge } := by
  simp [leave]

theorem leave_resolution (ref : BagRef) (s : State) : (leave ref s).resolution = { s.resolution with
    requests := s.resolution.requests.filter fun x => decide (x ≠ ref)
    service := s.resolution.service.map fun v => { v with owner := forget ref v.owner } } := by
  simp [leave]

theorem leave_outlet (ref : BagRef) (s : State) (k : OutletNo) :
    (leave ref s).outlets.get k = { s.outlets.get k with
      diverting := (s.outlets.get k).diverting.filter fun x => decide (x ≠ ref) } := by
  simp [leave]

theorem leave_lists (ref : BagRef) (s : State) :
    (leave ref s).handoff.pendingOffers
        = s.handoff.pendingOffers.filter (fun x => decide (x.ref ≠ ref))
      ∧ (leave ref s).handoff.expected = s.handoff.expected.filter fun x => decide (x.ref ≠ ref) := by
  simp [leave, endOfferOf_handoff]

theorem leave_outbound (ref : BagRef) (s : State) :
    (leave ref s).handoff.outbound
      = s.handoff.outbound.filter fun o => decide (o.ref ≠ ref) :=
  endOfferOf_outbound ref s

theorem leave_line (ref : BagRef) (s : State) : (leave ref s).line = (endOfferOf ref s).line := rfl

/-- The queues of the line stay. -/
theorem leave_line_rest (ref : BagRef) (s : State) :
    (leave ref s).line.answers = s.line.answers ∧ (leave ref s).line.notices = s.line.notices
      ∧ (leave ref s).line.receiver = s.line.receiver := by
  rw [leave_line]
  by_cases h : ∀ o, s.handoff.outbound = some o → o.ref ≠ ref
  · rw [endOfferOf_of_other h]
    exact ⟨rfl, rfl, rfl⟩
  · obtain ⟨o, hall⟩ := not_forall.mp h
    obtain ⟨ho, hr⟩ := Classical.not_imp.mp hall
    rw [not_not] at hr
    obtain ⟨hanswers, hnotices, hreceiver, -⟩ := endOfferFrame_line_rest s
    rw [endOfferOf_of_held ho hr]
    exact ⟨hanswers, hnotices, hreceiver⟩

theorem heldRecord_leave_same (ref : BagRef) (s : State) : heldRecord (leave ref s) ref = none := by
  obtain ⟨hpend, hexp⟩ := leave_lists ref s
  simp only [heldRecord, inTable, inPendingOffers, inExpected, leave_track, hpend, hexp,
    findIn_filter_same]

theorem heldRecord_leave_other (h : other ≠ ref) :
    heldRecord (leave ref s) other = heldRecord s other := by
  obtain ⟨hpend, hexp⟩ := leave_lists ref s
  simp only [heldRecord, inTable, inPendingOffers, inExpected, leave_track, hpend, hexp,
    findIn_filter_other _ h]

theorem not_requested_leave (ref : BagRef) (s : State) : ref ∉ (leave ref s).resolution.requests := by
  simp [leave_resolution]

/-- A record of the table that leaves is in no other list. -/
theorem leave_inbound_of_inTable (hrefs : RefsHeldOnce s) (h : (inTable s ref).isSome = true) :
    (leave ref s).handoff.pendingOffers = s.handoff.pendingOffers
      ∧ (leave ref s).handoff.expected = s.handoff.expected := by
  obtain ⟨hpend, hexp⟩ := not_inbound_of_inTable hrefs h
  obtain ⟨hpend', hexp'⟩ := leave_lists ref s
  rw [hpend', hexp', filter_refs_absent hpend, filter_refs_absent hexp]
  exact ⟨rfl, rfl⟩

/-! ## The outbound offer passes on (R128) -/

theorem takeUpOffer_of_held (h : s.handoff.outbound ≠ none) : takeUpOffer s = s := by
  unfold takeUpOffer
  split
  · next hnone _ => exact absurd hnone h
  · rfl

theorem takeUpOffer_of_nobody (h : nextToOffer s = none) : takeUpOffer s = s := by
  unfold takeUpOffer
  split
  · next hsome => rw [h] at hsome; cases hsome
  · rfl

theorem takeUpOffer_of_next (hout : s.handoff.outbound = none) (h : nextToOffer s = some r) :
    takeUpOffer s = (updateRecord r.ref (fun r => { r with heldOffer := true }) s).mapHandoff
      fun u => { u with outbound := some ⟨r.ref, .due, 0⟩ } := by
  unfold takeUpOffer
  rw [hout, h]

theorem sameBags_refl (l : List Record) : SameBags l l := rfl

theorem sameBags_updateIn (l : List Record) (ref : BagRef) :
    SameBags (updateIn l ref fun r => { r with heldOffer := true }) l := by
  simp only [SameBags, updateIn, List.map_map]
  refine List.map_congr_left fun x _ => ?_
  by_cases hx : x.ref = ref <;> simp [hx, apartFromOffer]

/-- What the offer's passing on changes: who has held it, and the offer itself. -/
theorem takeUpOffer_spec (hrefs : RefsHeldOnce s) : SameBags (takeUpOffer s).track.table s.track.table
    ∧ (takeUpOffer s).track = { s.track with table := (takeUpOffer s).track.table }
    ∧ (takeUpOffer s).handoff.pendingOffers = s.handoff.pendingOffers
    ∧ (takeUpOffer s).handoff.expected = s.handoff.expected := by
  by_cases hout : s.handoff.outbound = none
  · cases hnext : nextToOffer s with
    | none =>
      rw [takeUpOffer_of_nobody hnext]
      exact ⟨sameBags_refl _, rfl, rfl, rfl⟩
    | some r =>
      have hmem : r ∈ s.track.table := List.mem_of_find?_eq_some hnext
      rw [takeUpOffer_of_next hout hnext, updateRecord_of_inTable hrefs
        (by rw [inTable_of_mem hrefs hmem]; rfl)]
      exact ⟨sameBags_updateIn _ _, rfl, rfl, rfl⟩
  · rw [takeUpOffer_of_held hout]
    exact ⟨sameBags_refl _, rfl, rfl, rfl⟩

theorem takeUpOffer_outbound (s : State) :
    ((takeUpOffer s).handoff.outbound.map fun o => (o.ref, o.attempts))
      = if s.handoff.outbound = none then (nextToOffer s).map fun x => (x.ref, 0)
        else s.handoff.outbound.map fun o => (o.ref, o.attempts) := by
  by_cases hout : s.handoff.outbound = none
  · rw [if_pos hout]
    cases hnext : nextToOffer s with
    | none =>
      rw [takeUpOffer_of_nobody hnext, hout]
      rfl
    | some r =>
      rw [takeUpOffer_of_next hout hnext]
      rfl
  · rw [if_neg hout, takeUpOffer_of_held hout]

/-- Behind an offer that has passed on, nothing is left to pass on. -/
theorem takeUpOffer_settled (s : State) :
    (takeUpOffer s).handoff.outbound ≠ none ∨ nextToOffer (takeUpOffer s) = none := by
  by_cases hout : s.handoff.outbound = none
  · cases hnext : nextToOffer s with
    | none =>
      rw [takeUpOffer_of_nobody hnext]
      exact .inr hnext
    | some r =>
      rw [takeUpOffer_of_next hout hnext]
      exact .inl nofun
  · rw [takeUpOffer_of_held hout]
    exact .inl hout

theorem takeUpOffer_of_settled (h : s.handoff.outbound ≠ none ∨ nextToOffer s = none) :
    takeUpOffer s = s := h.elim takeUpOffer_of_held takeUpOffer_of_nobody

theorem sameBags_refs {l m : List Record} (h : SameBags l m) : l.map (·.ref) = m.map (·.ref) := by
  have hmap (k : List Record) : (k.map apartFromOffer).map (·.ref) = k.map (·.ref) := by
    rw [List.map_map]
    rfl
  rw [← hmap l, ← hmap m, h]

theorem sameBags_find {l m : List Record} (h : SameBags l m) (ref : BagRef) :
    (findIn l ref).map apartFromOffer = (findIn m ref).map apartFromOffer := by
  have hl := findIn_map l apartFromOffer (fun _ => rfl) ref
  have hm := findIn_map m apartFromOffer (fun _ => rfl) ref
  rw [← hl, ← hm, h]

/-! ## The crowd (R158, R159) -/

/-- The notice of a node that is crowded no longer. -/
def calmNotices (s : State) : List OutFrame :=
  if s.supervision.crowded = true ∧ occupancy s ≤ s.start.image.lowWater
    then [⟨31, .crowd, [0, byteOf (occupancy s)]⟩] else []

theorem queueNotice_counter {c : Counter} (h : c ≠ .droppedNotices) (f : OutFrame) (s : State) :
    (queueNotice f s).counter c = s.counter c := by
  unfold queueNotice
  split
  · rfl
  · rw [bumpOutsideFault]
    split
    · rfl
    · rw [bump_eq]
      exact raised_get_other _ h

theorem queueNotice_crowded (f : OutFrame) (s : State) :
    (queueNotice f s).supervision.crowded = s.supervision.crowded := by
  unfold queueNotice
  split
  · rfl
  · rw [bumpOutsideFault]
    split
    · rfl
    · rw [bump_eq]
      rfl

theorem occupancyFell_line (s : State) : (occupancyFell s).line = { s.line with
    notices := (s.line.notices ++ calmNotices s).take (max 8 s.line.notices.length) } := by
  unfold occupancyFell calmNotices
  by_cases h : s.supervision.crowded = true ∧ occupancy s ≤ s.start.image.lowWater
  · rw [if_pos h]
    exact (congrArg State.line (if_pos h)).trans (queueNotice_line _ _)
  · rw [if_neg h, List.append_nil, List.take_of_length_le (by omega)]
    exact congrArg State.line (if_neg h)

theorem occupancyFell_notices (h : s.line.notices.length < 8) :
    (occupancyFell s).line.notices = s.line.notices ++ calmNotices s := by
  rw [occupancyFell_line]
  refine List.take_of_length_le ?_
  have hlen : (calmNotices s).length ≤ 1 := by
    unfold calmNotices
    split <;> simp
  rw [List.length_append]
  omega

theorem occupancyFell_counter {c : Counter} (h : c ≠ .droppedNotices) (s : State) :
    (occupancyFell s).counter c = s.counter c := by
  unfold occupancyFell
  split
  · exact queueNotice_counter h _ _
  · rfl

theorem occupancyFell_crowded (s : State) : (occupancyFell s).supervision.crowded = true
    ↔ s.supervision.crowded = true ∧ s.start.image.lowWater < occupancy s := by
  by_cases h : s.supervision.crowded = true ∧ occupancy s ≤ s.start.image.lowWater
  · have heq : occupancyFell s = setCrowded false s := if_pos h
    rw [heq, setCrowded, queueNotice_crowded]
    exact ⟨nofun, fun hlow => absurd hlow.2 (not_lt.mpr h.2)⟩
  · have heq : occupancyFell s = s := if_neg h
    rw [heq]
    exact ⟨fun hc => ⟨hc, not_le.mp fun hle => h ⟨hc, hle⟩⟩, And.left⟩

end

end Sys2Proof.Machine

/-! # The inbound side's timers, and answers that leave the record (sections 7.1, 7.3 and 7.4) -/

namespace Sys2Proof.Machine

section
variable {s t u : State} {ref : BagRef} {r : Record}

theorem heldRecord_congr (htable : t.track.table = s.track.table)
    (hpend : t.handoff.pendingOffers = s.handoff.pendingOffers)
    (hexp : t.handoff.expected = s.handoff.expected) : heldRecord t ref = heldRecord s ref := by
  simp only [heldRecord, inTable, inPendingOffers, inExpected, htable, hpend, hexp]

theorem queueNotice_of_room {f : OutFrame} (h : s.line.notices.length < 8) : queueNotice f s = { s with
    line := { s.line with notices := s.line.notices ++ [f] } } := if_pos h

/-! ## The discard timer and the deadline -/

/-- A record that does not hold the outbound offer leaves. -/
theorem leave_of_not_offered (h : ∀ o, s.handoff.outbound = some o → o.ref ≠ ref) :
    leave ref s = dropRecord ref s := by
  rw [leave_eq, endOfferOf_of_other h]

/-- A record of an inbound list that leaves is in no place of the track table. -/
theorem leave_table_of_inbound (h : inTable s ref = none) :
    (leave ref s).track.table = s.track.table := by
  rw [leave_track]
  exact filter_refs_absent h

theorem exec_discardTimeout (hrun : s.start.node = .run) {n : Nat}
    (hr : inPendingOffers s ref = some r) (hready : r.ready = true) (htimer : r.discardTimer = some n) :
    exec (.discardTimeout ref) s = .next (bump .pendingDiscards (leave ref s)) := by
  show execDiscardTimeout ref s = _
  simp only [execDiscardTimeout, hr, inRun_of_run hrun, hready, htimer, Option.isSome_some, and_self,
    if_true]

theorem settleDeadlines_of_none (n : Nat) (h : deadlineReached s = none) : settleDeadlines n s = s := by
  cases n with
  | zero => rfl
  | succ n => rw [settleDeadlines, h]

theorem deadlineReached_of_reached {rest : List Record} {d : Position}
    (hexp : s.handoff.expected = r :: rest) (hd : r.deadline = some d) (hreached : reached s d = true) :
    deadlineReached s = some r := by
  simp only [deadlineReached, hexp, hd, hreached, if_true]

theorem deadlineReached_of_not_reached
    (h : ∀ x d, s.handoff.expected.head? = some x → x.deadline = some d → reached s d = false) :
    deadlineReached s = none := by
  rw [← Option.not_isSome_iff_eq_none, Option.isSome_iff_exists]
  rintro ⟨x, hx⟩
  obtain ⟨rest, d, hexp, hd, hreached⟩ := deadlineReached_eq_some hx
  rw [h x d (by rw [hexp]; rfl) hd] at hreached
  cases hreached

theorem missingPayload_places (r : Record) :
    (missingPayload r).length = 5 ∧ TagPlaces r (missingPayload r) :=
  ⟨rfl, tagPlaces_of_prefix r []⟩

/-- The next heads of the expected list stay where their deadlines are not reached (R144). -/
theorem settleDeadlines_once {rest : List Record} {d : Position} (hrefs : RefsHeldOnce s)
    (hexp : s.handoff.expected = r :: rest) (hd : r.deadline = some d) (hreached : reached s d = true)
    (hnext : ∀ x y, rest.head? = some x → x.deadline = some y → reached s y = false) :
    settleDeadlines s.handoff.expected.length s = takeMissing r s
      ∧ (leave r.ref s).handoff.expected = rest := by
  have hrest : (leave r.ref s).handoff.expected = rest := by
    have hnodup := (refsHeldOnce_iff.mp hrefs).2.2.1
    rw [hexp, List.map_cons, List.nodup_cons] at hnodup
    rw [(leave_lists r.ref s).2, hexp, List.filter_cons_of_neg (by simp)]
    exact filter_refs_absent (findIn_eq_none.mpr hnodup.1)
  refine ⟨?_, hrest⟩
  rw [hexp, List.length_cons, settleDeadlines, deadlineReached_of_reached hexp hd hreached]
  refine settleDeadlines_of_none _ (deadlineReached_of_not_reached fun x y hx hy => ?_)
  have hhead : (takeMissing r s).handoff.expected = rest := by
    simp [takeMissing, hrest]
  rw [hhead] at hx
  have hcounter : (takeMissing r s).position = s.position := by simp
  rw [reached, hcounter]
  exact hnext x y hx hy

/-- Settles O46: a discarded pending offer, and an expected bag that is declared missing. -/
theorem inboundRecordsTimeOut : Obligations.InboundRecordsTimeOut := by
  refine ⟨?_, ?_⟩
  · intro s r n hb hrun hr hready htimer hother
    obtain ⟨-, -, hrefs⟩ := hb
    obtain ⟨htable, hexp⟩ := not_elsewhere_of_inPendingOffers hrefs (ref := r.ref) (by rw [hr]; rfl)
    have hexec := exec_discardTimeout hrun hr hready htimer
    rw [bump_eq] at hexec
    refine ⟨_, hexec, heldRecord_leave_same r.ref s, ?_, ?_, ?_, ?_, leave_table_of_inbound htable, ?_,
      by simp, by simp, by simp⟩
    · rw [leave_of_not_offered hother]
      exact congrArg (HandoffUnit.mk _ _) (filter_refs_absent hexp)
    · rw [leave_resolution]
    · rw [leave_resolution]
    · simp
    · rw [leave_of_not_offered hother]
      rfl
  · intro s r rest d hb hrun hexp hd hreached hroom hnext hother
    obtain ⟨-, -, hrefs⟩ := hb
    have hin : (inExpected s r.ref).isSome = true := by
      rw [inExpected_of_mem hrefs (by rw [hexp]; exact List.mem_cons_self)]
      rfl
    obtain ⟨htable, hpend⟩ := not_elsewhere_of_inExpected hrefs hin
    obtain ⟨hsettled, hrest⟩ := settleDeadlines_once hrefs hexp hd hreached hnext
    have hexec : exec .expectedDeadline s = .next (arbitrate (takeMissing r s)) := by
      show execExpectedDeadline s = _
      simp only [execExpectedDeadline, deadlineReached_of_reached hexp hd hreached, inRun_of_run hrun,
        if_true, hsettled]
    have hnotices : (leave r.ref s).line.notices.length < 8 := by
      rwa [(leave_line_rest r.ref s).2.1]
    obtain ⟨hlen, hplaces⟩ := missingPayload_places r
    have hmissing : takeMissing r s = { leave r.ref s with
        line := { (leave r.ref s).line with
          notices := s.line.notices ++ [⟨31, .missing, missingPayload r⟩] }
        supervision := raised .missing s.supervision } := by
      rw [takeMissing, queueNotice_of_room (by simpa using hnotices), bump_eq]
      simp only [(leave_line_rest r.ref s).2.1, leave_rest]
      rfl
    have hstays := filter_refs_absent hpend
    refine ⟨_, hexec, ?_, ?_, ?_, ⟨missingPayload r, hlen, hplaces, ?_⟩, ?_, ?_, ?_, ?_, ?_, ?_⟩
    · rw [heldRecord_congr (s := leave r.ref s) (by simp [hmissing]) (by simp [hmissing])
        (by simp [hmissing])]
      exact heldRecord_leave_same r.ref s
    · simp [hmissing, hrest]
    · rw [(arbitrate_handoff_lists _).1, hmissing]
      exact (leave_lists r.ref s).1.trans hstays
    · simp [hmissing]
    · simp [hmissing]
    · simp [hmissing, leave_table_of_inbound htable]
    · simp [hmissing]
    · simp [hmissing, leave_resolution]
    · simp [hmissing]
    · simp [hmissing]

/-! ## Answers that leave the record where it is -/

theorem exec_spurn {body : List Byte} {f : InFrame} {o : Outbound} (hrun : s.start.node = .run)
    (hf : handedFrame s .spurn body = some f) (hsrc : f.source = s.start.image.downstream)
    (ho : s.handoff.outbound = some o) (href : payloadRef f.payload = o.ref) (hstage : o.stage ≠ .spent) :
    exec (.spurnReceived body) s
      = .next (arbitrate (decidePermit (spurnAnswer o.ref (frameOver s)))) := by
  show execSpurnReceived body s = _
  rw [execSpurnReceived, takeAnswer_of_downstream hrun hf hsrc, answeredOffer_eq ho href,
    if_neg hstage] <;> rfl

/-- The offer of a stray-bound record is spent (R132). -/
theorem spurnAnswer_of_stray {o : Outbound} (ho : s.handoff.outbound = some o)
    (hr : inTable s o.ref = some r) (hstray : r.stray ≠ none) : spurnAnswer o.ref s = { s with
      line := (endOfferFrame s).line
      handoff := { s.handoff with outbound := some { o with stage := .spent } }
      supervision := raised .spurnedOffers s.supervision } := by
  have hstage : spurnAnswer o.ref s = setStage .spent (endOfferFrame (bump .spurnedOffers s)) := by
    rw [spurnAnswer, hr]
    exact if_pos (Option.isSome_iff_ne_none.mpr hstray)
  have hout : (endOfferFrame (bump .spurnedOffers s)).handoff.outbound = some o := by simp [ho]
  have hline : (endOfferFrame (bump .spurnedOffers s)).line = (endOfferFrame s).line :=
    endOfferFrame_line_congr (by simp) (by simp)
  rw [hstage, setStage_eq hout, endOfferFrame_eq]
  simp only [hline]
  rw [bump_eq]

/-! ## An offer that is spent stays as it is before the arbiter -/

theorem takeBack_handoff (hwait : ∀ h, s.line.transmitter = .waitGap h → h.source = .offer →
    h.collisions ≠ 0) : (takeBack s).handoff = s.handoff := by
  unfold takeBack
  split
  · next h htr =>
    split
    · next hcond =>
      obtain ⟨-, hcol, -⟩ := hcond
      cases hsrc : h.source with
      | offer => exact absurd hcol (hwait h htr hsrc)
      | answer => rfl
      | notices => rfl
      | status => rfl
    · rfl
  · rfl

theorem handOver_handoff (hspent : offerStage s = some .spent) : (handOver s).handoff = s.handoff := by
  unfold handOver
  split
  · rfl
  · next src _ =>
    split
    · rfl
    · next f hframe =>
      cases src with
      | offer =>
        obtain ⟨o, ho, hstage⟩ := Option.map_eq_some_iff.mp hspent
        simp [sourceFrame, offerFrame, ho, hstage] at hframe
      | answer => simp [holdFrame, markTaken, enterWaitGap]
      | notices => simp [holdFrame, markTaken, enterWaitGap]
      | status => simp [holdFrame, markTaken, enterWaitGap, setStatusDue]

theorem arbitrate_handoff_of_spent (hspent : offerStage s = some .spent)
    (hwait : ∀ h, s.line.transmitter = .waitGap h → h.source = .offer → h.collisions ≠ 0) :
    (arbitrate s).handoff = s.handoff := by
  have hback := takeBack_handoff hwait
  unfold arbitrate
  split
  · rfl
  · dsimp only
    split
    · rw [handOver_handoff (by rw [offerStage, hback]; exact hspent), hback]
    · exact hback

/-- A frame being sent goes on past the end of an offer. -/
theorem sending_of_withdrawn {h : HeldFrame} (hw : OfferWithdrawn s u)
    (htr : s.line.transmitter = .sending h) : (arbitrate u).line.transmitter = .sending h := by
  have hnot : ¬OfferFrameWaits s := by
    rintro ⟨o, x, -, -, -, hwait | ⟨len, count, hback⟩⟩
    · rw [htr] at hwait
      cases hwait
    · rw [htr] at hback
      cases hback
  have hu : u.line.transmitter = .sending h := (hw.2 hnot).1.trans htr
  rw [arbitrate_of_sending hu, hu]

/-- Settles O42: a spurned offer of a stray-bound record, and the answers that match nothing. -/
theorem spurnedAndLateAnswers : Obligations.SpurnedAndLateAnswers := by
  refine ⟨?_, ?_⟩
  · intro s body f o r hline hrun hf hsrc ho href hstage hr hstray
    have hspurn := spurnAnswer_of_stray (s := frameOver s) ho hr hstray
    obtain ⟨u, hu⟩ : ∃ u, u = decidePermit (spurnAnswer o.ref (frameOver s)) := ⟨_, rfl⟩
    have hexec := exec_spurn hrun hf hsrc ho href hstage
    have hueq := hu.trans (decidePermit_eq _)
    rw [hspurn] at hueq
    rw [← hu] at hexec
    have hwithdrawn : OfferWithdrawn s u := by
      have h : OfferWithdrawn s (endOfferFrame (frameOver s)) := endOfferFrame_withdraws (frameOver s)
      rw [OfferWithdrawn, hueq]
      exact h
    have hhandoff : (arbitrate u).handoff = u.handoff := by
      refine arbitrate_handoff_of_spent (by rw [hueq]; rfl) fun h htr hsource hcol => ?_
      by_cases hwaits : OfferFrameWaits s
      · rw [(hwithdrawn.1 hwaits).1] at htr
        cases htr
      · rw [(hwithdrawn.2 hwaits).1] at htr
        obtain ⟨-, -, -, hfirst⟩ := hline
        have honLine := hfirst h htr hsource hcol
        rw [offerStage, ho] at honLine
        exact hwaits ⟨o, h, ho, hsource, .inl (Option.some.inj honLine), .inl htr⟩
    have hsup : u.supervision = raised .spurnedOffers s.supervision := by
      rw [hueq]
      rfl
    have hrest : u.line.answers = s.line.answers ∧ u.line.notices = s.line.notices := by
      rw [hueq]
      exact ⟨(endOfferFrame_line_rest (frameOver s)).1, (endOfferFrame_line_rest (frameOver s)).2.1⟩
    refine ⟨_, hexec, ?_, ?_, ?_, ?_, ⟨u, rfl, hwithdrawn⟩, fun h htr => ?_, ?_, ?_, ?_, ?_, ?_⟩
    · rw [hhandoff, hueq]
      rfl
    · simp [hueq]
      rfl
    · simp [hueq]
      rfl
    · rw [State.counter, (arbitrate_supervision_rest u).1, hsup]
      exact raised_get_same _ _
    · exact sending_of_withdrawn hwithdrawn htr
    · simp [hrest.1]
    · simp [hrest.2]
    · simp [hueq]
      rfl
    · simp [hueq]
      rfl
    · simp [hueq]
      rfl
  · intro s i k body f hrun hi hf
    refine ⟨fun hsrc => ?_, fun hsrc hlate => ?_⟩
    · rcases hi with ⟨rfl, rfl⟩ | ⟨rfl, rfl⟩ | ⟨rfl, rfl⟩
      · exact congrArg Host.Outcome.next (takeAnswer_of_foreign hrun hf hsrc)
      · exact congrArg Host.Outcome.next (takeAnswer_of_foreign hrun hf hsrc)
      · exact congrArg Host.Outcome.next (takeAnswer_of_foreign hrun hf hsrc)
    · have hnone : answeredOffer s f = none := by
        unfold answeredOffer
        cases ho : s.handoff.outbound with
        | none => rfl
        | some o =>
          refine if_neg fun h => ?_
          rcases hlate o ho with href | hspent
          · exact href h.1
          · exact h.2 hspent
      have hanswer {act : BagRef → State → State} : takeAnswer k body act s = frameOver s := by
        rw [takeAnswer_of_downstream hrun hf hsrc, hnone] <;> rfl
      rcases hi with ⟨rfl, rfl⟩ | ⟨rfl, rfl⟩ | ⟨rfl, rfl⟩
      · exact congrArg Host.Outcome.next hanswer
      · exact congrArg Host.Outcome.next hanswer
      · exact congrArg Host.Outcome.next hanswer

end

end Sys2Proof.Machine

/-! # Offers from upstream (section 7.3) -/

namespace Sys2Proof.Machine

section
variable {s t u : State} {ref : BagRef} {r : Record} {o : Offered}

/-! ## The answer -/

theorem queueAnswer_of_room {f : OutFrame} (h : s.line.answers.length < 4) : queueAnswer f s = { s with
    line := { s.line with answers := s.line.answers ++ [f] } } := if_pos h

/-- An event that ends with an answer queued and the arbiter's work. -/
theorem answered_rest {f : OutFrame} (h : s.line.answers.length < 4) :
    (arbitrate (queueAnswer f s)).track = s.track
      ∧ (arbitrate (queueAnswer f s)).resolution = s.resolution
      ∧ (arbitrate (queueAnswer f s)).handoff.pendingOffers = s.handoff.pendingOffers
      ∧ (arbitrate (queueAnswer f s)).handoff.expected = s.handoff.expected
      ∧ (arbitrate (queueAnswer f s)).line.answers = s.line.answers ++ [f]
      ∧ (arbitrate (queueAnswer f s)).supervision.counters = s.supervision.counters
      ∧ (arbitrate (queueAnswer f s)).outlets = s.outlets
      ∧ (arbitrate (queueAnswer f s)).position = s.position
      ∧ (arbitrate (queueAnswer f s)).start = s.start := by
  rw [queueAnswer_of_room h]
  simp

theorem exec_offerReceived {body : List Byte} {f : InFrame} (hrun : s.start.node = .run)
    (hf : handedFrame s .offer body = some f) (hdest : f.dest ≠ 31)
    (ho : decodeOffer f.payload = some o) : exec (.offerReceived body) s
      = .next (arbitrate (queueAnswer
        ⟨f.source, (answerOffer o (frameOver s)).2, refBytes o.ref⟩
        (answerOffer o (frameOver s)).1)) := by
  show execOfferReceived body s = _
  simp only [execOfferReceived, hf, inRun_of_run hrun, if_true, ho]
  exact congrArg Host.Outcome.next (if_neg hdest)

theorem answerOffer_of_held (h : (inTable s o.ref).isSome = true ∨ (inExpected s o.ref).isSome = true) :
    answerOffer o s = (s, .take) := if_pos (Bool.or_eq_true _ _ ▸ h)

theorem answerOffer_of_none (h : heldRecord s o.ref = none) : answerOffer o s
    = if s.handoff.pendingOffers.length < 4 ∧ s.start.clearHeld = false then (enterOffer o s, .wait)
      else (s, .wait) := by
  obtain ⟨htable, hpend, hexp⟩ := heldRecord_eq_none.mp h
  simp only [answerOffer, htable, hexp, hpend, Option.isSome_none, Bool.or_self, Bool.false_eq_true,
    if_false]
  rfl

theorem answerOffer_of_pending (hrefs : RefsHeldOnce s) (h : inPendingOffers s o.ref = some r) :
    answerOffer o s = if r.ready then
        if s.handoff.expected.length < 8 then (moveToExpected o.ref (updateOffer o r s), .take)
        else (restartDiscard o.ref (updateOffer o r s), .wait)
      else (updateOffer o r s, .wait) := by
  obtain ⟨htable, hexp⟩ := not_elsewhere_of_inPendingOffers hrefs (ref := o.ref) (by rw [h]; rfl)
  simp only [answerOffer, htable, hexp, h, Option.isSome_none, Bool.or_self, Bool.false_eq_true,
    if_false]
  rfl

/-! ## A new entry (R139, R99) -/

theorem enterOffer_eq (hnone : heldRecord s o.ref = none) : ∃ unit, enterOffer o s = { s with
      handoff := { s.handoff with
        pendingOffers := s.handoff.pendingOffers
          ++ [pendingRecord { o with stray := entryMark s o }] }
      resolution := unit }
    ∧ unit.exceptions = s.resolution.exceptions ∧ Requested s (enterOffer o s) o.ref := by
  obtain ⟨w, hw⟩ : ∃ w, w = s.mapHandoff fun u => { u with
      pendingOffers := u.pendingOffers ++ [pendingRecord { o with stray := entryMark s o }] } :=
    ⟨_, rfl⟩
  have henter : enterOffer o s = raiseRequest o.ref w := by rw [hw]; rfl
  obtain ⟨-, -, hexpected⟩ := heldRecord_eq_none.mp hnone
  have hexp : inExpected w o.ref = none := by rwa [hw]
  have hheld : (heldRecord w o.ref).isSome = true := by
    rw [heldRecord_isSome, hw]
    simp [inPendingOffers, findIn_isSome, pendingRecord]
  have hkeeps := keepsRequests_raiseRequest o.ref w
  refine ⟨(raiseRequest o.ref w).resolution, ?_, ?_, ?_⟩
  · rw [henter]
    conv_lhs => rw [raiseRequest_eq_resolution hexp]
    rw [hw]
    rfl
  · rw [hkeeps.exceptions, hw]
    rfl
  · rw [henter]
    exact (requested_raiseRequest hexp hheld).congr (by rw [hw]; rfl)

/-- Settles O43: a first OFFER makes a RESOLVING entry. -/
theorem newOfferEntersQueue : Obligations.NewOfferEntersQueue := by
  intro s body f o hb hrun hclear hf hdest ho hnone hroom hanswers
  have hexec := exec_offerReceived hrun hf hdest ho
  have hnone' : heldRecord (frameOver s) o.ref = none := hnone
  obtain ⟨unit, henter, hexceptions, hrequested⟩ := enterOffer_eq hnone'
  rw [answerOffer_of_none hnone', if_pos ⟨hroom, hclear⟩] at hexec
  have hroom' : (enterOffer o (frameOver s)).line.answers.length < 4 := by
    rw [henter]
    exact hanswers
  obtain ⟨htrack, hres, hpend, hexp, hans, hcounters, houtlets, hposition, hstart⟩ :=
    answered_rest (f := ⟨f.source, .wait, refBytes o.ref⟩) hroom'
  refine ⟨pendingRecord { o with stray := entryMark s o }, _, hexec, ?_, rfl, rfl, rfl, rfl, rfl, ?_,
    ?_, ?_, ?_, ?_, ?_, ?_, ?_, ?_⟩
  · rw [hpend, henter]
    rfl
  · have hreq := hrequested
    rw [Requested] at hreq ⊢
    rw [hres]
    exact hreq
  · rw [hans, henter]
    rfl
  · rw [hexp, henter]
    rfl
  · rw [htrack, henter]
    rfl
  · rw [hcounters, henter]
    rfl
  · rw [houtlets, henter]
    rfl
  · rw [hposition, henter]
    rfl
  · rw [hstart, henter]
    rfl
  · rw [hres, henter]
    exact hexceptions

/-! ## A repeated OFFER (R140) -/

/-- A record of the pending-offer queue, `r` till then, with the fields that are offered: its mark is the
one offered, and where none is offered the lap check follows changed laps or a cleared mark. -/
def reoffered (limit : Nat) (o : Offered) (r x : Record) : Record :=
  { takeOffered o x with
    stray :=
      if o.stray ≠ none then o.stray
      else if (r.stray ≠ none ∨ o.laps ≠ r.laps) ∧ limit ≤ o.laps then some .laps else none }

/-- The fields are taken, and a changed tag or mark raises a request. -/
def offeredRequest (o : Offered) (r : Record) (s : State) : State :=
  if decide (o.stray.isSome ≠ r.stray.isSome) || decide (o.tag ≠ r.tag)
    then raiseRequest r.ref (updateRecord r.ref (takeOffered o) s)
    else updateRecord r.ref (takeOffered o) s

theorem updateOffer_eq_lapCheck (o : Offered) (r : Record) (s : State) : updateOffer o r s
    = if decide (o.stray.isSome ≠ r.stray.isSome) || decide (o.laps ≠ r.laps)
        then lapCheck r.ref (offeredRequest o r s) else offeredRequest o r s := rfl

theorem keepsRequests_offeredRequest (o : Offered) (r : Record) (s : State) :
    KeepsRequests s (offeredRequest o r s) := by
  have hupdate := keepsRequests_updateRecord r.ref (f := takeOffered o) (fun _ => rfl) s
  unfold offeredRequest
  split
  · exact hupdate.trans (keepsRequests_raiseRequest _ _)
  · exact hupdate

theorem keepsRequests_updateOffer (o : Offered) (r : Record) (s : State) :
    KeepsRequests s (updateOffer o r s) := by
  rw [updateOffer_eq_lapCheck]
  split
  · exact (keepsRequests_offeredRequest o r s).trans (keepsRequests_lapCheck _ _)
  · exact keepsRequests_offeredRequest o r s

theorem offeredRequest_eq (hrefs : RefsHeldOnce s) (hr : inPendingOffers s r.ref = some r) :
    offeredRequest o r s = { s with
      handoff := { s.handoff with
        pendingOffers := updateIn s.handoff.pendingOffers r.ref (takeOffered o) }
      resolution := (offeredRequest o r s).resolution } := by
  obtain ⟨htable, hexp⟩ := not_elsewhere_of_inPendingOffers hrefs (ref := r.ref) (by rw [hr]; rfl)
  have hupdate : updateRecord r.ref (takeOffered o) s = { s with
      handoff := { s.handoff with
        pendingOffers := updateIn s.handoff.pendingOffers r.ref (takeOffered o) } } := by
    rw [updateRecord_of_not_expected hexp, updateIn_absent _ (findIn_eq_none.mp htable)]
  have hexp' : inExpected (updateRecord r.ref (takeOffered o) s) r.ref = none := by
    rw [hupdate]
    exact hexp
  unfold offeredRequest
  split
  · conv_lhs => rw [raiseRequest_eq_resolution hexp']
    rw [hupdate]
  · rw [hupdate]

theorem inPendingOffers_offeredRequest (hrefs : RefsHeldOnce s)
    (hr : inPendingOffers s r.ref = some r) :
    inPendingOffers (offeredRequest o r s) r.ref = some (takeOffered o r) := by
  rw [inPendingOffers, offeredRequest_eq hrefs hr]
  show findIn (updateIn s.handoff.pendingOffers r.ref (takeOffered o)) r.ref = _
  rw [findIn_updateIn_same _ _ (takeOffered o) (fun _ => rfl)]
  show (inPendingOffers s r.ref).map _ = _
  rw [hr]
  rfl

/-- What a repeated OFFER leaves of its entry. -/
theorem updateOffer_eq (hrefs : RefsHeldOnce s) (hr : inPendingOffers s r.ref = some r) :
    updateOffer o r s = { s with
      handoff := { s.handoff with
        pendingOffers := updateIn s.handoff.pendingOffers r.ref
          (reoffered s.start.image.lapLimit o r) }
      resolution := (updateOffer o r s).resolution } := by
  have hoffered := offeredRequest_eq (o := o) hrefs hr
  have hin := inPendingOffers_offeredRequest (o := o) hrefs hr
  have hrefs' := (keepsRequests_offeredRequest o r s).refs.refsHeldOnce hrefs
  obtain ⟨htable, -⟩ := not_elsewhere_of_inPendingOffers hrefs' (ref := r.ref) (by rw [hin]; rfl)
  have hlap : lapCheck r.ref (offeredRequest o r s) = if s.start.image.lapLimit ≤ o.laps
      then markStray .laps r.ref (offeredRequest o r s) else offeredRequest o r s := by
    rw [lapCheck_eq (heldRecord_of_inPendingOffers hin htable),
      show (offeredRequest o r s).start = s.start from congrArg (·.start) hoffered]
    rfl
  have hone : ∀ x ∈ s.handoff.pendingOffers, x.ref = r.ref → x = r := fun x hx hxr => by
    have hheld := heldRecord_of_inPendingOffers hr
      (not_elsewhere_of_inPendingOffers hrefs (ref := r.ref) (by rw [hr]; rfl)).1
    exact eq_of_heldRecord hrefs hheld (mem_pending_held hx) hxr
  have hunit {unit : ResolutionUnit} (f : Record → Record) (hf : f r = reoffered s.start.image.lapLimit o r r)
      (heq : updateOffer o r s = { s with
        handoff := { s.handoff with
          pendingOffers := updateIn s.handoff.pendingOffers r.ref f }, resolution := unit }) :
      updateOffer o r s = { s with
        handoff := { s.handoff with
          pendingOffers := updateIn s.handoff.pendingOffers r.ref
            (reoffered s.start.image.lapLimit o r) }
        resolution := (updateOffer o r s).resolution } := by
    have hlist := updateIn_congr (l := s.handoff.pendingOffers) (ref := r.ref) (f := f)
      (g := reoffered s.start.image.lapLimit o r) fun x hx hxr => by rw [hone x hx hxr, hf]
    rw [hlist] at heq
    rw [heq]
  have hupdate := updateOffer_eq_lapCheck o r s
  rw [hlap] at hupdate
  by_cases hlaps : (o.stray.isSome ≠ r.stray.isSome ∨ o.laps ≠ r.laps)
      ∧ s.start.image.lapLimit ≤ o.laps
  · obtain ⟨hchanged, hle⟩ := hlaps
    rw [if_pos (by simpa using hchanged), if_pos hle] at hupdate
    have hmark := markStray_of_inPendingOffers (cause := .laps) hrefs' hin
    have hlist : (offeredRequest o r s).handoff.pendingOffers
        = updateIn s.handoff.pendingOffers r.ref (takeOffered o) :=
      congrArg (·.handoff.pendingOffers) hoffered
    rw [hlist, updateIn_updateIn _ _ (takeOffered o) _ (fun _ => rfl)] at hmark
    obtain ⟨unit, hv⟩ : ∃ unit, unit = (markStray .laps r.ref (offeredRequest o r s)).resolution :=
      ⟨_, rfl⟩
    rw [← hv, hoffered] at hmark
    refine hunit (unit := unit) (fun x => marked .laps (takeOffered o x)) ?_ (hupdate.trans ?_)
    · cases hstray : o.stray with
      | none =>
        have hcond : (r.stray ≠ none ∨ o.laps ≠ r.laps) ∧ s.start.image.lapLimit ≤ o.laps := by
          refine ⟨hchanged.imp (fun h hnone => h ?_) id, hle⟩
          rw [hstray, hnone]
        simp only [reoffered, marked, takeOffered, hstray, if_pos hcond]
        simp
      | some cause => simp [reoffered, marked, takeOffered, hstray]
    · rw [← hmark, ← hoffered]
  · have hsame : updateOffer o r s = offeredRequest o r s := by
      rw [hupdate]
      split
      · next hchanged =>
        exact if_neg fun hle => hlaps ⟨by simpa using hchanged, hle⟩
      · rfl
    refine hunit (takeOffered o) ?_ (hsame.trans hoffered)
    cases hstray : o.stray with
    | none =>
      have hcond : ¬((r.stray ≠ none ∨ o.laps ≠ r.laps) ∧ s.start.image.lapLimit ≤ o.laps) := by
        rintro ⟨hchanged, hle⟩
        refine hlaps ⟨hchanged.imp (fun h heq => h ?_) id, hle⟩
        rw [hstray, Option.isSome_none] at heq
        exact Option.not_isSome_iff_eq_none.mp (by rw [← heq]; simp)
      simp only [reoffered, takeOffered, hstray, if_neg hcond]
      simp
    | some cause => simp [reoffered, takeOffered, hstray]

/-- An OFFER that changes neither tag, mark nor laps leaves the Resolution Unit. -/
theorem updateOffer_unchanged (htag : o.tag = r.tag) (hmark : o.stray.isSome = r.stray.isSome)
    (hlaps : o.laps = r.laps) : (updateOffer o r s).resolution = s.resolution := by
  rw [updateOffer_eq_lapCheck, if_neg (by simp [hmark, hlaps]), offeredRequest,
    if_neg (by simp [hmark, htag])]
  rfl

/-- A changed tag or mark asks for the entry's resolution. -/
theorem requested_updateOffer (hrefs : RefsHeldOnce s) (hr : inPendingOffers s r.ref = some r)
    (h : o.tag ≠ r.tag ∨ o.stray.isSome ≠ r.stray.isSome) : Requested s (updateOffer o r s) r.ref := by
  have hf : ∀ x, (takeOffered o x).ref = x.ref := fun _ => rfl
  obtain ⟨-, hexp⟩ := not_elsewhere_of_inPendingOffers hrefs (ref := r.ref) (by rw [hr]; rfl)
  have hasked : offeredRequest o r s = raiseRequest r.ref (updateRecord r.ref (takeOffered o) s) := by
    refine if_pos ?_
    rcases h with h | h <;> simp [h]
  have hheld : (heldRecord (updateRecord r.ref (takeOffered o) s) r.ref).isSome = true := by
    rw [(sameRefs_updateRecord r.ref hf).heldRecord_isSome, heldRecord_isSome, hr]
    simp
  have hexp' : inExpected (updateRecord r.ref (takeOffered o) s) r.ref = none := by
    rw [inExpected_updateRecord_same hf, hexp]
    rfl
  refine requested_between (keepsRequests_updateRecord r.ref hf s) hexp' hheld ?_
  rw [← hasked, updateOffer_eq_lapCheck]
  split
  · exact keepsRequests_lapCheck _ _
  · exact .refl _

/-- The entry keeps its place, with the fields offered. -/
theorem inPendingOffers_updateOffer (hrefs : RefsHeldOnce s) (hr : inPendingOffers s r.ref = some r) :
    inPendingOffers (updateOffer o r s) r.ref
      = some (reoffered s.start.image.lapLimit o r r) := by
  rw [inPendingOffers, updateOffer_eq hrefs hr]
  show findIn (updateIn s.handoff.pendingOffers r.ref _) r.ref = _
  rw [findIn_updateIn_same _ _ (reoffered s.start.image.lapLimit o r) (fun _ => rfl)]
  show (inPendingOffers s r.ref).map _ = _
  rw [hr]
  rfl

/-- A reoffered record whose discard timer has started again where it was READY. -/
def waitingEntry (limit : Nat) (o : Offered) (r x : Record) : Record :=
  { reoffered limit o r x with discardTimer := if r.ready then some 0 else x.discardTimer }

/-- An entry that waits on: a READY one has its discard timer started again (R138, R142). -/
def keptWaiting (o : Offered) (r : Record) (s : State) : State :=
  if r.ready then restartDiscard r.ref (updateOffer o r s) else updateOffer o r s

theorem answerOffer_of_waiting (hrefs : RefsHeldOnce s) (hr : inPendingOffers s r.ref = some r)
    (href : r.ref = o.ref) (hwait : r.ready = false ∨ 8 ≤ s.handoff.expected.length) :
    answerOffer o s = (keptWaiting o r s, .wait) := by
  rw [href] at hr
  rw [answerOffer_of_pending hrefs hr, keptWaiting, href]
  cases hready : r.ready with
  | false => rfl
  | true =>
    have hfull := hwait.resolve_left (by simp [hready])
    rw [if_pos rfl, if_neg (not_lt.mpr hfull), if_pos rfl]

theorem keptWaiting_eq (hrefs : RefsHeldOnce s) (hr : inPendingOffers s r.ref = some r) :
    keptWaiting o r s = { s with
      handoff := { s.handoff with
        pendingOffers := updateIn s.handoff.pendingOffers r.ref
          (waitingEntry s.start.image.lapLimit o r) }
      resolution := (updateOffer o r s).resolution } := by
  have hupdate := updateOffer_eq (o := o) hrefs hr
  unfold keptWaiting
  cases hready : r.ready with
  | false =>
    have hfun : waitingEntry s.start.image.lapLimit o r = reoffered s.start.image.lapLimit o r := by
      funext x
      simp only [waitingEntry, hready]
      rfl
    rw [hfun]
    exact hupdate
  | true =>
    have hfun : waitingEntry s.start.image.lapLimit o r = fun x =>
        { reoffered s.start.image.lapLimit o r x with discardTimer := some 0 } := by
      funext x
      simp only [waitingEntry, hready]
      rfl
    have hin := inPendingOffers_updateOffer (o := o) hrefs hr
    have hrefs' := (keepsRequests_updateOffer o r s).refs.refsHeldOnce hrefs
    obtain ⟨htable, hexp⟩ :=
      not_elsewhere_of_inPendingOffers hrefs' (ref := r.ref) (by rw [hin]; rfl)
    have hlist : (updateOffer o r s).handoff.pendingOffers
        = updateIn s.handoff.pendingOffers r.ref (reoffered s.start.image.lapLimit o r) :=
      congrArg (·.handoff.pendingOffers) hupdate
    have hrestart := updateRecord_of_not_expected
      (f := fun r : Record => { r with discardTimer := some 0 }) hexp
    rw [updateIn_absent _ (findIn_eq_none.mp htable), hlist,
      updateIn_updateIn _ _ (reoffered s.start.image.lapLimit o r) _ (fun _ => rfl)] at hrestart
    obtain ⟨unit, hv⟩ : ∃ unit, unit = (updateOffer o r s).resolution := ⟨_, rfl⟩
    rw [if_pos rfl, restartDiscard, hrestart, hfun, ← hv]
    rw [← hv] at hupdate
    rw [hupdate]

/-- Settles O45: the repeated OFFERs that wait, and those that enter nothing. -/
theorem offersThatWaitOrEnterNothing : Obligations.OffersThatWaitOrEnterNothing := by
  refine ⟨?_, ?_⟩
  · intro s body f o r hb hrun hf hdest ho hr hwait hanswers
    obtain ⟨-, -, hrefs⟩ := hb
    have href : r.ref = o.ref := inPendingOffers_ref hr
    rw [← href] at hr
    have hexec := exec_offerReceived hrun hf hdest ho
    have hwaiting := answerOffer_of_waiting (s := frameOver s) hrefs hr href hwait
    have heq := keptWaiting_eq (s := frameOver s) (o := o) hrefs hr
    rw [hwaiting] at hexec
    have hanswers' : (keptWaiting o r (frameOver s)).line.answers.length < 4 := by
      rw [heq]
      exact hanswers
    obtain ⟨htrack, hres, hpend, hexp, hans, hcounters, houtlets, hposition, hstart⟩ :=
      answered_rest (f := ⟨f.source, .wait, refBytes o.ref⟩) hanswers'
    dsimp only at hexec
    rw [heq] at hexec htrack hres hpend hexp hans hcounters houtlets hposition hstart
    refine ⟨waitingEntry s.start.image.lapLimit o r r, _, hexec, ?_, ?_, rfl, rfl, rfl,
      rfl, rfl, rfl, rfl, rfl, rfl, rfl, fun htag hmark hlaps => ⟨?_, ?_⟩, fun hchanged => ?_, hans,
      hexp, htrack, hcounters, houtlets, hposition, hstart⟩
    · rw [hpend]
      exact updateIn_map_ref _ _ _ (by intro _; rfl)
    · rw [inPendingOffers, hpend, ← href]
      show findIn (updateIn s.handoff.pendingOffers r.ref _) r.ref = _
      rw [findIn_updateIn_same _ _ (waitingEntry _ o r) (fun _ => rfl)]
      show (inPendingOffers s r.ref).map _ = _
      rw [hr]
      rfl
    · show (if o.stray ≠ none then o.stray
        else if (r.stray ≠ none ∨ o.laps ≠ r.laps) ∧ s.start.image.lapLimit ≤ o.laps then some .laps
          else none) = o.stray
      cases hstray : o.stray with
      | none =>
        have hrstray : r.stray = none :=
          Option.not_isSome_iff_eq_none.mp (by rw [← hmark, hstray]; simp)
        simp [hrstray, hlaps]
      | some cause => simp
    · rw [hres]
      exact updateOffer_unchanged htag hmark hlaps
    · have hreq : Requested (frameOver s) (updateOffer o r (frameOver s)) r.ref :=
        requested_updateOffer hrefs hr hchanged
      rw [Requested] at hreq ⊢
      rw [hres, ← href]
      exact hreq
  · intro s body f hrun hf
    refine ⟨fun hdest => ?_, fun hdest ho => ?_, fun o hdest ho => ⟨fun hheld => ?_, fun hnone hfull => ?_⟩⟩
    · show execOfferReceived body s = _
      simp only [execOfferReceived, hf, inRun_of_run hrun, if_true]
      rw [← bump_endFrame]
      exact congrArg Host.Outcome.next (if_pos hdest)
    · show execOfferReceived body s = _
      simp only [execOfferReceived, hf, inRun_of_run hrun, if_true, ho]
      rw [← bump_endFrame]
      exact congrArg Host.Outcome.next (if_neg hdest)
    · rw [exec_offerReceived hrun hf hdest ho, answerOffer_of_held (s := frameOver s) hheld]
    · rw [exec_offerReceived hrun hf hdest ho, answerOffer_of_none (s := frameOver s) hnone, if_neg]
      rintro ⟨hroom, hopen⟩
      rcases hfull with hfull | hclear
      · exact absurd hroom (not_lt.mpr hfull)
      · exact Bool.false_ne_true (hopen.symm.trans hclear)

end

end Sys2Proof.Machine

/-! # A READY entry is taken (R140, R141, R34) -/

namespace Sys2Proof.Machine

section
variable {s t u : State} {ref : BagRef} {r e : Record} {o : Offered}

/-! ## Whose requests an event raises -/

theorem requests_startResolution (s : State) {x : BagRef}
    (h : x ∈ (startResolution s).resolution.requests) : x ∈ s.resolution.requests := by
  by_cases hidle : s.resolution.service = none
  · cases hnext : s.resolution.requests with
    | nil => rwa [startResolution_of_quiet hnext, hnext] at h
    | cons head rest =>
      rw [startResolution_of_idle hidle hnext] at h
      exact List.mem_cons_of_mem _ h
  · rwa [startResolution_of_busy hidle] at h

/-- A record of the expected list has no request of its own (R59). -/
theorem not_requested_raiseRequest (x : BagRef) (hnot : ref ∉ s.resolution.requests)
    (hexp : (inExpected s ref).isSome = true) : ref ∉ (raiseRequest x s).resolution.requests := by
  cases hx : inExpected s x with
  | some y =>
    rw [raiseRequest_of_expected (by rw [hx]; rfl)]
    exact hnot
  | none =>
    by_cases hwaits : x ∈ s.resolution.requests
    · rwa [raiseRequest_of_waiting hx hwaits]
    · rw [raiseRequest_of_new hx hwaits]
      intro h
      rcases List.mem_append.mp (requests_startResolution _ h) with h | h
      · exact hnot h
      · rw [List.mem_singleton.mp h, hx] at hexp
        cases hexp

theorem not_requested_markStray (cause : StrayCause) (x : BagRef) (hnot : ref ∉ s.resolution.requests)
    (hexp : (inExpected s ref).isSome = true) : ref ∉ (markStray cause x s).resolution.requests := by
  cases hx : heldRecord s x with
  | none => rwa [markStray, hx]
  | some y =>
    by_cases hstray : y.stray = none
    · rw [markStray_of_unmarked hx hstray]
      split
      · refine not_requested_raiseRequest x hnot ?_
        rwa [inExpected_isSome_updateRecord (by intro _; rfl)]
      · exact hnot
    · rwa [markStray_of_stray hx hstray]

theorem not_requested_markAll (cause : StrayCause) (refs : List BagRef)
    (hnot : ref ∉ s.resolution.requests) (hexp : (inExpected s ref).isSome = true) :
    ref ∉ (refs.foldl (fun t x => markStray cause x t) s).resolution.requests := by
  induction refs generalizing s with
  | nil => exact hnot
  | cons x refs ih =>
    refine ih (not_requested_markStray cause x hnot hexp) ?_
    rwa [(sameRefs_markStray cause x s).inExpected_isSome]

theorem not_requested_duplicateCheck (x : BagRef) (hnot : ref ∉ s.resolution.requests)
    (hexp : (inExpected s ref).isSome = true) : ref ∉ (duplicateCheck x s).resolution.requests := by
  unfold duplicateCheck
  split
  · exact hnot
  · split
    · exact hnot
    · rw [bump_eq]
      exact not_requested_markAll _ _ hnot hexp

/-! ## The entry that moves -/

theorem moveToExpected_eq (hr : inPendingOffers s ref = some r) : moveToExpected ref s
    = duplicateCheck ref (moveToList ref
      (expectedRecord (ahead s.position.counter s.start.image.expectDistance)
        (decide (ref ∈ s.resolution.requests)) r) s) := by
  simp only [moveToExpected, hr]
  rfl

/-- Another record of a node, marked where it carries a tag. -/
def twinMarked (tag : Option Tag) (mark : Record → Record) (x : Record) : Record :=
  if twin tag x then mark x else x

theorem twinMarked_ref {mark : Record → Record} (hmark : ∀ x, (mark x).ref = x.ref) (tag : Option Tag)
    (x : Record) : (twinMarked tag mark x).ref = x.ref := by
  unfold twinMarked
  split
  · exact hmark x
  · rfl

theorem map_twinMarked_refs {mark : Record → Record} (hmark : ∀ x, (mark x).ref = x.ref)
    (tag : Option Tag) (l : List Record) : (l.map (twinMarked tag mark)).map (·.ref) = l.map (·.ref) := by
  rw [List.map_map]
  exact List.map_congr_left fun x _ => twinMarked_ref hmark tag x

/-- The duplicate check of an entry that has moved to the tail of the expected list. -/
theorem duplicateCheck_moved {duplicate : Bool} (hrefs : RefsHeldOnce s)
    (hstates : ∀ x ∈ s.handoff.expected, x.state = .expected)
    (hr : inPendingOffers s r.ref = some r) (he : e.ref = r.ref) (hestate : e.state = .expected)
    (hdup : duplicate = (s.track.table ++ s.handoff.expected).any (twin e.tag)) :
    ∃ unit, duplicateCheck r.ref (moveToList r.ref e s) = { s with
        track := { s.track with
          table := s.track.table.map (twinMarked e.tag (marked .duplicate)) }
        handoff := { s.handoff with
          pendingOffers := s.handoff.pendingOffers.filter fun x => decide (x.ref ≠ r.ref)
          expected := s.handoff.expected.map (twinMarked e.tag (markedDue .duplicate))
            ++ [if duplicate then markedDue .duplicate e else e] }
        resolution := unit
        supervision := if duplicate then raised .duplicates s.supervision else s.supervision }
      ∧ unit.exceptions = s.resolution.exceptions ∧ r.ref ∉ unit.requests := by
  obtain ⟨m, hm⟩ : ∃ m, m = moveToList r.ref e s := ⟨_, rfl⟩
  have hmrefs : RefsHeldOnce m := hm ▸ refsHeldOnce_moveToList hrefs hr he
  have htable : m.track.table = s.track.table := by rw [hm]; rfl
  have hlist : m.handoff.expected = s.handoff.expected ++ [e] := by rw [hm]; rfl
  have hmem : e ∈ m.handoff.expected := by rw [hlist]; simp
  have hheld : heldRecord m e.ref = some e := heldRecord_of_mem hmrefs (mem_expected_held hmem)
  have hmstates : ∀ x ∈ m.handoff.expected, x.state = .expected := by
    rw [hlist]
    intro x hx
    rcases List.mem_append.mp hx with hx | hx
    · exact hstates x hx
    · rw [List.mem_singleton.mp hx, hestate]
  have hcheck := duplicateCheck_eq hmrefs hmstates hheld (List.mem_append_right _ hmem)
  obtain ⟨hnotTable, hnotList⟩ :=
    not_elsewhere_of_inPendingOffers hrefs (ref := r.ref) (by rw [hr]; rfl)
  have hother : ∀ x ∈ s.track.table ++ s.handoff.expected, x.ref ≠ e.ref := by
    intro x hx hxe
    rw [he] at hxe
    rcases List.mem_append.mp hx with hx | hx
    · exact findIn_eq_none.mp hnotTable (hxe ▸ List.mem_map_of_mem hx)
    · exact findIn_eq_none.mp hnotList (hxe ▸ List.mem_map_of_mem hx)
  have hfound : foundDuplicate m e = duplicate := by
    have hself : duplicateOf e e = false := by simp [duplicateOf]
    rw [hdup, foundDuplicate, htable, hlist, ← List.append_assoc, List.any_append, Bool.eq_iff_iff]
    simp only [List.any_cons, List.any_nil, hself, Bool.or_false, List.any_eq_true]
    refine exists_congr fun x => and_congr_right fun hx => ?_
    simp [duplicateOf, hother x hx]
  have hmarked (mark : Record → Record) {l : List Record}
      (hl : ∀ x ∈ l, x ∈ s.track.table ++ s.handoff.expected) :
      l.map (checked e duplicate mark) = l.map (twinMarked e.tag mark) :=
    List.map_congr_left fun x hx => checked_other (hother x (hl x hx))
  rw [hfound, htable, hlist, List.map_append, hmarked _ fun x => List.mem_append_left _,
    hmarked _ fun x => List.mem_append_right _, List.map_singleton, checked_self] at hcheck
  obtain ⟨unit, hunit⟩ : ∃ unit, unit = (duplicateCheck e.ref m).resolution := ⟨_, rfl⟩
  have hkeeps := keepsRequests_duplicateCheck e.ref m
  have hnot : r.ref ∉ (duplicateCheck e.ref m).resolution.requests := by
    refine not_requested_duplicateCheck _ ?_ ?_
    · rw [hm]
      simp [moveToList]
    · rw [← he, inExpected_of_mem hmrefs hmem]
      rfl
  rw [← hunit] at hcheck hnot
  refine ⟨unit, ?_, ?_, hnot⟩
  · rw [← hm, ← he, hcheck, hm, he]
    rfl
  · rw [hunit, hkeeps.exceptions, hm]
    rfl

theorem waiting_markStray (cause : StrayCause) (hwaits : ref ∈ s.resolution.requests)
    (hexp : inExpected s ref = none) : ref ∈ (markStray cause ref s).resolution.requests := by
  cases hr : heldRecord s ref with
  | none => rwa [markStray, hr]
  | some x =>
    by_cases hstray : x.stray = none
    · have hexp' : inExpected (updateRecord ref (fun r => { r with stray := some cause }) s) ref
          = none := by
        rw [inExpected_updateRecord_same (by intro _; rfl), hexp]
        rfl
      rw [markStray_of_unmarked hr hstray]
      split
      · rwa [raiseRequest_of_waiting hexp' hwaits]
      · exact hwaits
    · rwa [markStray_of_stray hr hstray]

/-- A record of the expected list behind its own duplicate check (R34, R59). -/
def duplicateDue (found : Bool) (x : Record) : Record :=
  { x with
    stray := if x.stray = none ∧ found = true then some .duplicate else x.stray
    resolutionDue := x.resolutionDue || decide (x.stray = none ∧ found = true)
    verdict := if x.stray = none ∧ found = true then .unresolved else x.verdict }

theorem duplicateDue_eq (found : Bool) (x : Record) :
    (if found then markedDue .duplicate x else x) = duplicateDue found x := by
  by_cases h : x.stray = none ∧ found = true
  · obtain ⟨hstray, hfound⟩ := h
    simp only [duplicateDue, hfound, hstray, markedDue_of_none hstray, if_true, and_self, decide_true,
      Bool.or_true]
  · have hsame : duplicateDue found x = x := by
      simp only [duplicateDue, if_neg h, decide_eq_false h, Bool.or_false]
    rw [hsame]
    split
    · next hfound => exact markedDue_of_stray fun hstray => h ⟨hstray, hfound⟩
    · rfl

/-- A waiting request of an entry stays where it is while a repeated OFFER is taken. -/
theorem updateOffer_of_waiting (hrefs : RefsHeldOnce s) (hr : inPendingOffers s r.ref = some r)
    (hwaits : r.ref ∈ s.resolution.requests) : r.ref ∈ (updateOffer o r s).resolution.requests := by
  have hf : ∀ x, (takeOffered o x).ref = x.ref := fun _ => rfl
  obtain ⟨-, hexp⟩ := not_elsewhere_of_inPendingOffers hrefs (ref := r.ref) (by rw [hr]; rfl)
  have hexp' : inExpected (updateRecord r.ref (takeOffered o) s) r.ref = none := by
    rw [inExpected_updateRecord_same hf, hexp]
    rfl
  have hasked : r.ref ∈ (offeredRequest o r s).resolution.requests := by
    unfold offeredRequest
    split
    · rwa [raiseRequest_of_waiting hexp' hwaits]
    · exact hwaits
  have hexpAsked : inExpected (offeredRequest o r s) r.ref = none := by
    rw [offeredRequest_eq hrefs hr]
    exact hexp
  rw [updateOffer_eq_lapCheck]
  split
  · unfold lapCheck
    split
    · exact hasked
    · split
      · exact waiting_markStray _ hasked hexpAsked
      · exact hasked
  · exact hasked

/-- Settles O44: a repeated OFFER for a READY entry is taken. -/
theorem repeatedOfferIsTaken : Obligations.RepeatedOfferIsTaken := by
  intro s body f o r duplicate hb hstates hrun hf hdest ho hr hready hroom hanswers hdup
  obtain ⟨-, -, hrefs⟩ := hb
  obtain ⟨-, -, hexpected⟩ := hstates
  have href : r.ref = o.ref := inPendingOffers_ref hr
  have hexec := exec_offerReceived hrun hf hdest ho
  have htaken : answerOffer o (frameOver s)
      = (moveToExpected o.ref (updateOffer o r (frameOver s)), .take) := by
    rw [answerOffer_of_pending (s := frameOver s) hrefs hr, if_pos hready]
    exact if_pos hroom
  rw [htaken] at hexec
  dsimp only at hexec
  rw [← href] at hr hexec
  obtain ⟨w, hw⟩ : ∃ w, w = updateOffer o r (frameOver s) := ⟨_, rfl⟩
  have hweq := updateOffer_eq (s := frameOver s) (o := o) hrefs hr
  have hwin := inPendingOffers_updateOffer (s := frameOver s) (o := o) hrefs hr
  have hwkeeps := keepsRequests_updateOffer o r (frameOver s)
  have hwrefs := hwkeeps.refs.refsHeldOnce (s := frameOver s) hrefs
  have hwwaits := updateOffer_of_waiting (s := frameOver s) (o := o) hrefs hr
  rw [← hw] at hexec hweq hwin hwkeeps hwrefs hwwaits
  obtain ⟨q, hq⟩ : ∃ q, q = reoffered s.start.image.lapLimit o r r := ⟨_, rfl⟩
  have hqin : inPendingOffers w q.ref = some q := by
    rw [hq]
    exact hwin
  have hwtable : w.track = s.track := by rw [hweq]; rfl
  have hwlist : w.handoff.expected = s.handoff.expected := by rw [hweq]; rfl
  have hwstart : w.start = s.start := by rw [hweq]; rfl
  have hwposition : w.position = s.position := by rw [hweq]; rfl
  obtain ⟨e, he⟩ : ∃ e, e = expectedRecord
      (ahead s.position.counter s.start.image.expectDistance)
      (decide (r.ref ∈ w.resolution.requests)) q := ⟨_, rfl⟩
  have hqref : q.ref = r.ref := by rw [hq]; rfl
  have hmoved := moveToExpected_eq (s := w) (ref := r.ref) (hqref ▸ hqin)
  rw [hwposition, hwstart, ← he] at hmoved
  obtain ⟨unit, hcheck, hexceptions, hnot⟩ := duplicateCheck_moved (s := w) (r := q) (e := e)
    (duplicate := duplicate) hwrefs (by rw [hwlist]; exact hexpected) hqin (by rw [he]; rfl)
    (by rw [he]; rfl) (by rw [hdup, hwtable, hwlist, he, hq]; rfl)
  rw [hqref] at hcheck hnot
  rw [duplicateDue_eq] at hcheck
  obtain ⟨z, hz⟩ : ∃ z, z = duplicateCheck r.ref (moveToList r.ref e w) := ⟨_, rfl⟩
  rw [← hz] at hcheck
  rw [hmoved, ← hz] at hexec
  have hzanswers : z.line.answers = s.line.answers := by rw [hcheck, hweq]; rfl
  obtain ⟨htrack, hres, hpend, hexp, hans, hcounters, houtlets, hposition, hstart⟩ :=
    answered_rest (s := z) (f := ⟨f.source, .take, refBytes r.ref⟩) (by rwa [hzanswers])
  have hnone := (not_elsewhere_of_inPendingOffers hrefs (ref := r.ref) (by rw [hr]; rfl)).2
  have hzexp : z.handoff.expected
      = s.handoff.expected.map (twinMarked o.tag (markedDue .duplicate))
        ++ [duplicateDue duplicate e] := by
    rw [hcheck, hwlist, he, hq]
    rfl
  have hdueRef (x : Record) : (markedDue .duplicate x).ref = x.ref := (markedDue_keeps _ x).1
  rw [← href]
  refine ⟨duplicateDue duplicate e, _, hexec, ?_, ?_, ?_, ?_, ?_, ?_, ?_, ?_, ?_, ?_, fun x hx => ?_,
    fun x hx => ?_, ?_, ?_, ?_, ?_, ?_, fun hwaits => ?_, ?_, ?_, ?_, ?_, ?_, ?_⟩
  · rw [hexp, hzexp, List.map_append, map_twinMarked_refs hdueRef, he, ← hqref]
    rfl
  · have hrefsPending : w.handoff.pendingOffers.map (·.ref) = s.handoff.pendingOffers.map (·.ref) :=
      hwkeeps.refs.2.1
    rw [hpend, hcheck, ← hrefsPending, List.filter_map]
    rfl
  · rw [inExpected, hexp, hzexp, findIn_append, findIn_map _ _ (twinMarked_ref hdueRef _),
      show findIn s.handoff.expected r.ref = none from hnone]
    simp [findIn, duplicateDue, he, expectedRecord, hqref]
  · rw [he, hq]; rfl
  · rw [he, hq]; rfl
  · rw [he, hq]; rfl
  · rw [he, hq]; rfl
  · rw [he, hq]; rfl
  · rw [he, hq]; rfl
  · have hqstray : e.stray = if o.stray ≠ none then o.stray
        else if (r.stray ≠ none ∨ o.laps ≠ r.laps) ∧ s.start.image.lapLimit ≤ o.laps then some .laps
          else none := by
      rw [he, hq]
      rfl
    show (if e.stray = none ∧ duplicate = true then some StrayCause.duplicate else e.stray) = _
    rw [hqstray]
    cases hstray : o.stray with
    | some cause => simp
    | none =>
      by_cases hcond : (r.stray ≠ none ∨ o.laps ≠ r.laps) ∧ s.start.image.lapLimit ≤ o.laps
      · simp [hcond]
      · simp [hcond]
  · rw [inTable, htrack, hcheck, hwtable]
    show findIn (s.track.table.map (twinMarked e.tag (marked .duplicate))) x.ref = _
    rw [findIn_map _ _ (twinMarked_ref (marked_ref _) _),
      show findIn s.track.table x.ref = some x from inTable_of_mem hrefs hx, he, hq]
    rfl
  · rw [inExpected, hexp, hzexp, findIn_append, findIn_map _ _ (twinMarked_ref hdueRef _),
      show findIn s.handoff.expected x.ref = some x from inExpected_of_mem hrefs hx]
    rfl
  · have hsup : z.supervision = if duplicate then raised .duplicates s.supervision
        else s.supervision := by
      rw [hcheck, hweq]
      rfl
    rw [State.counter, hcounters, hsup]
    cases duplicate with
    | false => rfl
    | true => exact raised_get_same _ _
  · rw [he]; rfl
  · rw [he]; rfl
  · rw [he]; rfl
  · rw [hres, hcheck]
    exact hnot
  · have hwaiting : r.ref ∈ w.resolution.requests := hwwaits hwaits
    simp [duplicateDue, he, expectedRecord, hwaiting]
  · rw [hans, hzanswers]
  · rw [htrack, hcheck, hwtable]
    exact map_twinMarked_refs (marked_ref _) _ _
  · rw [houtlets, hcheck, hweq]
    rfl
  · rw [hposition, hcheck, hweq]
    rfl
  · rw [hstart, hcheck, hweq]
    rfl
  · rw [hres, hcheck]
    exact hexceptions.trans hwkeeps.exceptions

end

end Sys2Proof.Machine

/-! # A record that leaves the track table (R20, R22, R128), and its segment exit (R127) -/

namespace Sys2Proof.Machine

section
variable {s t u : State} {ref other : BagRef} {r : Record}

/-! ## Leaving the track table -/

/-- The records of a list without one. -/
def without (ref : BagRef) (l : List Record) : List Record := l.filter fun x => decide (x.ref ≠ ref)

theorem refsHeldOnce_leave (ref : BagRef) (hrefs : RefsHeldOnce s) : RefsHeldOnce (leave ref s) := by
  obtain ⟨hpend, hexp⟩ := leave_lists ref s
  have hheld : heldRecords (leave ref s) = (heldRecords s).filter fun x => decide (x.ref ≠ ref) := by
    simp only [heldRecords, leave_track, hpend, hexp, List.filter_append]
  rw [RefsHeldOnce, hheld]
  exact hrefs.sublist (List.filter_sublist.map _)

theorem refsHeldOnce_occupancyFell (hrefs : RefsHeldOnce s) : RefsHeldOnce (occupancyFell s) := by
  have hsame : SameRefs s (occupancyFell s) := sameRefs_of_eq (by simp) (by simp)
  exact hsame.refsHeldOnce hrefs

/-- The front-most EXITING record of a list that has not held the outbound offer (R128). -/
def nextOffered (l : List Record) : Option Record :=
  l.find? fun x => decide (x.state = .exiting) && !x.heldOffer

theorem nextToOffer_eq (s : State) : nextToOffer s = nextOffered s.track.table := rfl

theorem leaveTable_bags (ref : BagRef) (hrefs : RefsHeldOnce s) :
    SameBags (leaveTable ref s).track.table (without ref s.track.table)
      ∧ (leaveTable ref s).track = { s.track with
        table := (leaveTable ref s).track.table
        openEntry := forget ref s.track.openEntry
        openMerge := forget ref s.track.openMerge }
      ∧ (leaveTable ref s).handoff.pendingOffers = without ref s.handoff.pendingOffers
      ∧ (leaveTable ref s).handoff.expected = without ref s.handoff.expected := by
  obtain ⟨hbags, htrack, hpend, hexp⟩ :=
    takeUpOffer_spec (refsHeldOnce_occupancyFell (refsHeldOnce_leave ref hrefs))
  obtain ⟨hpend', hexp'⟩ := leave_lists ref s
  rw [(occupancyFell_rest (s := leave ref s)).2.1, leave_track] at hbags htrack
  rw [(occupancyFell_rest (s := leave ref s)).2.2.2.2.1] at hpend hexp
  exact ⟨hbags, htrack, hpend.trans hpend', hexp.trans hexp'⟩

theorem heldRecord_leaveTable (ref : BagRef) (hrefs : RefsHeldOnce s) :
    heldRecord (leaveTable ref s) ref = none := by
  obtain ⟨hbags, -, hpend, hexp⟩ := leaveTable_bags ref hrefs
  have htable : findIn (leaveTable ref s).track.table ref = none := by
    have hfind := sameBags_find hbags ref
    rw [without, findIn_filter_same] at hfind
    exact Option.map_eq_none_iff.mp hfind
  rw [heldRecord_eq_none]
  refine ⟨htable, ?_, ?_⟩
  · rw [inPendingOffers, hpend]
    exact findIn_filter_same _ _
  · rw [inExpected, hexp]
    exact findIn_filter_same _ _

theorem leaveTable_resolution (ref : BagRef) (s : State) :
    (leaveTable ref s).resolution = (leave ref s).resolution := by
  simp [leaveTable]

theorem leaveTable_outlets (ref : BagRef) (s : State) :
    (leaveTable ref s).outlets = (leave ref s).outlets := by
  simp [leaveTable]

theorem leaveTable_outbound (ref : BagRef) (s : State) :
    ((leaveTable ref s).handoff.outbound.map fun o => (o.ref, o.attempts))
      = if s.handoff.outbound.filter (fun o => decide (o.ref ≠ ref)) = none
        then (nextOffered (without ref s.track.table)).map fun x => (x.ref, 0)
        else s.handoff.outbound.map fun o => (o.ref, o.attempts) := by
  rw [leaveTable, takeUpOffer_outbound, (occupancyFell_rest (s := leave ref s)).2.2.2.2.1,
    leave_outbound, nextToOffer_eq, (occupancyFell_rest (s := leave ref s)).2.1, leave_track]
  cases ho : s.handoff.outbound with
  | none => rfl
  | some o =>
    by_cases href : o.ref = ref
    · simp [Option.filter, href, without]
    · simp [Option.filter, href]

theorem leaveTable_line (ref : BagRef) (s : State) :
    (leaveTable ref s).line = (occupancyFell (leave ref s)).line := by
  simp [leaveTable]

theorem leaveTable_supervision (ref : BagRef) (s : State) :
    (leaveTable ref s).supervision = (occupancyFell (leave ref s)).supervision := by
  simp [leaveTable]

theorem leaveTable_counter {c : Counter} (h : c ≠ .droppedNotices) (ref : BagRef) (s : State) :
    (leaveTable ref s).counter c = s.counter c := by
  rw [State.counter, leaveTable_supervision]
  show (occupancyFell (leave ref s)).counter c = _
  rw [occupancyFell_counter h]
  simp [State.counter]

theorem leaveTable_line_rest (ref : BagRef) (s : State) :
    (leaveTable ref s).line.answers = s.line.answers
      ∧ (leaveTable ref s).line.receiver = s.line.receiver
      ∧ (leaveTable ref s).line.transmitter = (endOfferOf ref s).line.transmitter
      ∧ (leaveTable ref s).line.turn = (endOfferOf ref s).line.turn := by
  obtain ⟨hanswers, -, hreceiver⟩ := leave_line_rest ref s
  rw [leaveTable_line, occupancyFell_line]
  exact ⟨hanswers, hreceiver, rfl, rfl⟩

/-- The offer of the record that leaves is withdrawn (R119, R134). -/
theorem leaveTable_withdraws {o : Outbound} (ho : s.handoff.outbound = some o) (href : o.ref = ref) :
    OfferWithdrawn s (leaveTable ref s) := by
  obtain ⟨-, -, htransmitter, hturn⟩ := leaveTable_line_rest ref s
  have h := endOfferFrame_withdraws s
  rw [endOfferOf_of_held ho href] at htransmitter hturn
  rw [OfferWithdrawn, htransmitter, hturn]
  exact h

theorem OfferWithdrawn.of_line {w : State} (h : OfferWithdrawn s w)
    (htransmitter : u.line.transmitter = w.line.transmitter) (hturn : u.line.turn = w.line.turn) :
    OfferWithdrawn s u := by
  rwa [OfferWithdrawn, htransmitter, hturn]

/-! ## The segment exit -/

/-- A change of one record that touches neither the line nor the offer, before the record leaves. -/
structure BeforeExit (ref : BagRef) (s w : State) : Prop where
  refs : RefsHeldOnce w
  table : without ref w.track.table = without ref s.track.table
  pending : w.handoff.pendingOffers = s.handoff.pendingOffers
  expected : w.handoff.expected = s.handoff.expected
  outbound : w.handoff.outbound = s.handoff.outbound
  line : w.line = s.line
  counters : ∀ c, c ≠ .refusals → w.counter c = s.counter c
  exceptions : w.resolution.exceptions = s.resolution.exceptions
  outlets : ∀ k, (leave ref w).outlets.get k = (leave ref s).outlets.get k
  position : w.position = s.position
  start : w.start = s.start

theorem leavesAbandoned_of {w : State} (hrefs : RefsHeldOnce s) (hr : inTable s r.ref = some r)
    (h : BeforeExit r.ref s w) :
    LeavesAbandoned s (arbitrate (decidePermit (takeExit r.ref w))) r := by
  obtain ⟨x, hx⟩ : ∃ x, x = takeExit r.ref w := ⟨_, rfl⟩
  have hxeq : x = { leaveTable r.ref w with
      supervision := raised .abandoned (leaveTable r.ref w).supervision } := by
    rw [hx, takeExit, bump_eq]
  obtain ⟨hbags, -, hpend, hexp⟩ := leaveTable_bags r.ref h.refs
  obtain ⟨hnotPend, hnotExp⟩ := not_inbound_of_inTable hrefs (ref := r.ref) (by rw [hr]; rfl)
  have hout := leaveTable_outbound r.ref w
  rw [h.table] at hbags
  rw [h.table, h.outbound] at hout
  rw [h.pending, without, filter_refs_absent hnotPend] at hpend
  rw [h.expected, without, filter_refs_absent hnotExp] at hexp
  rw [← hx]
  have hres : (arbitrate (decidePermit x)).resolution = (leaveTable r.ref w).resolution := by
    simp [hxeq, decidePermit]
  have houtlets : (arbitrate (decidePermit x)).outlets = (leaveTable r.ref w).outlets := by
    simp [hxeq, decidePermit]
  have hlists : (arbitrate (decidePermit x)).handoff.pendingOffers
        = (leaveTable r.ref w).handoff.pendingOffers
      ∧ (arbitrate (decidePermit x)).handoff.expected = (leaveTable r.ref w).handoff.expected := by
    simp [hxeq, decidePermit]
  have hattempts : ((arbitrate (decidePermit x)).handoff.outbound.map fun o => (o.ref, o.attempts))
      = (leaveTable r.ref w).handoff.outbound.map fun o => (o.ref, o.attempts) := by
    rw [arbitrate_outbound, hxeq]
    rfl
  have hcounter (c : Counter) : (arbitrate (decidePermit x)).counter c = x.counter c := by
    rw [State.counter, (arbitrate_supervision_rest _).1]
    rfl
  refine ⟨_, rfl, ?_, ?_, ?_, ?_, ?_, ?_, ?_, ?_, permitFollows_arbitrate_decidePermit x, ?_, ?_, ?_,
    ?_, ?_, ?_⟩
  · rw [(arbitrate_rest (s := decidePermit x)).2.1, hxeq]
    exact hbags
  · rw [heldRecord_congr (s := leaveTable r.ref w) (by simp [hxeq, decidePermit])
      (by simp [hxeq, decidePermit]) (by simp [hxeq, decidePermit])]
    exact heldRecord_leaveTable r.ref h.refs
  · rw [hres, leaveTable_resolution]
    exact not_requested_leave _ _
  · intro hall
    rw [hattempts, hout, if_pos]
    · rfl
    · cases ho : s.handoff.outbound with
      | none => rfl
      | some o => simp [Option.filter, hall o ho]
  · intro o ho href
    rw [hattempts, hout, ho, if_neg (by simp [Option.filter, href])]
    rfl
  · intro o ho href
    refine ⟨_, rfl, ?_⟩
    have hw : OfferWithdrawn w (leaveTable r.ref w) :=
      leaveTable_withdraws (by rw [h.outbound]; exact ho) href
    have hs : OfferWithdrawn s (leaveTable r.ref w) := by
      rwa [OfferWithdrawn, OfferFrameWaits, h.outbound, h.line] at hw
    rw [hxeq]
    exact hs
  · rw [hcounter, hxeq]
    refine (raised_get_same _ _).trans (congrArg nextCount ?_)
    exact (leaveTable_counter (by decide) _ _).trans (h.counters _ (by decide))
  · rw [hcounter, hxeq]
    refine (raised_get_other _ (by decide)).trans ?_
    exact (leaveTable_counter (by decide) _ _).trans (h.counters _ (by decide))
  · intro k
    rw [houtlets, leaveTable_outlets, h.outlets, leave_outlet]
  · rw [hlists.2, hexp]
  · rw [hlists.1, hpend]
  · rw [hres, leaveTable_resolution, leave_resolution]
    exact h.exceptions
  · rw [(arbitrate_rest (s := decidePermit x)).1, hxeq]
    simp [decidePermit, h.position]
  · rw [(arbitrate_rest (s := decidePermit x)).2.2.2.2.2.1, hxeq]
    simp [decidePermit, h.start]

theorem without_updateIn (l : List Record) (ref : BagRef) {f : Record → Record}
    (hf : ∀ x, (f x).ref = x.ref) : without ref (updateIn l ref f) = without ref l := by
  induction l with
  | nil => rfl
  | cons x l ih =>
    show without ref ((if x.ref = ref then f x else x) :: updateIn l ref f) = without ref (x :: l)
    by_cases hx : x.ref = ref
    · rw [if_pos hx, without, without, List.filter_cons_of_neg (by simp [hf, hx]),
        List.filter_cons_of_neg (by simp [hx])]
      exact ih
    · rw [if_neg hx, without, without, List.filter_cons_of_pos (by simp [hx]),
        List.filter_cons_of_pos (by simp [hx])]
      exact congrArg _ ih

theorem exitReached_iff : exitReached s r = true ↔ r.state = .exiting
    ∧ ∃ p, r.trail = some p ∧ reached s (ahead p s.start.image.segmentLength) = true := by
  unfold exitReached
  cases htrail : r.trail with
  | none => simp
  | some p => simp [image_def]

/-- A record whose exit is reached as it becomes EXITING leaves, and the offer has passed on (R127). -/
theorem takeUpOffer_takeExit (ref : BagRef) (s : State) : takeUpOffer (takeExit ref s) = takeExit ref s := by
  refine takeUpOffer_of_settled ?_
  have h : (takeExit ref s).handoff = (leaveTable ref s).handoff
      ∧ (takeExit ref s).track = (leaveTable ref s).track := by
    simp [takeExit]
  rw [nextToOffer, h.1, h.2]
  exact takeUpOffer_settled _

theorem settleExit_of_reached (hr : inTable s ref = some r) (h : exitReached s r = true) :
    settleExit ref s = takeExit ref s := by
  rw [settleExit, hr]
  exact if_pos h

theorem settleExit_of_not_reached (hr : inTable s ref = some r) (h : exitReached s r = false) :
    settleExit ref s = s := by
  rw [settleExit, hr]
  exact if_neg (by simp [h])

/-- A record that becomes EXITING, its exit waits set. -/
def madeExiting (ref : BagRef) (s : State) : State :=
  updateRecord ref (fun r => { r with state := .exiting }) s

theorem becomeExiting_eq (ref : BagRef) (s : State) :
    becomeExiting ref s = takeUpOffer (settleExit ref (madeExiting ref s)) := rfl

theorem inTable_madeExiting (hr : inTable s ref = some r) :
    inTable (madeExiting ref s) ref = some { r with state := .exiting } := by
  rw [madeExiting, inTable_updateRecord_same (by intro _; rfl), hr]
  rfl

theorem becomeExiting_of_exit {p : Position} (hr : inTable s ref = some r) (htrail : r.trail = some p)
    (h : reached s (ahead p s.start.image.segmentLength) = true) :
    becomeExiting ref s = takeExit ref (madeExiting ref s) := by
  have hexit : exitReached (madeExiting ref s) { r with state := .exiting } = true :=
    exitReached_iff.mpr ⟨rfl, p, htrail, h⟩
  rw [becomeExiting_eq, settleExit_of_reached (inTable_madeExiting hr) hexit, takeUpOffer_takeExit]

theorem becomeExiting_of_stays (hr : inTable s ref = some r)
    (h : ∀ p, r.trail = some p → reached s (ahead p s.start.image.segmentLength) = false) :
    becomeExiting ref s = takeUpOffer (madeExiting ref s) := by
  have hexit : exitReached (madeExiting ref s) { r with state := .exiting } = false := by
    rw [← Bool.not_eq_true, exitReached_iff]
    rintro ⟨-, p, hp, hreached⟩
    exact Bool.false_ne_true ((h p hp).symm.trans hreached)
  rw [becomeExiting_eq, settleExit_of_not_reached (inTable_madeExiting hr) hexit]

/-! ## The offer point -/

theorem offerPointReached_state (h : offerPointReached s r = true) :
    r.state = .onBelt ∨ r.state = .diverting := by
  unfold offerPointReached at h
  split at h
  · simp only [Bool.and_eq_true, decide_eq_true_eq] at h
    exact h.1.2
  · cases h

theorem exec_offerPoint (hrun : s.start.node = .run) (hr : inTable s ref = some r)
    (h : offerPointReached s r = true) :
    exec (.offerPoint ref) s = .next (arbitrate (decidePermit (takeOfferPoint r s))) := by
  show execOfferPoint ref s = _
  simp only [execOfferPoint, hr, inRun_of_run hrun, h, and_self, if_true]

theorem exec_segmentExit (hrun : s.start.node = .run) (hr : inTable s ref = some r)
    (h : exitReached s r = true) :
    exec (.segmentExit ref) s = .next (arbitrate (decidePermit (takeExit ref s))) := by
  show execSegmentExit ref s = _
  simp only [execSegmentExit, hr, inRun_of_run hrun, h, and_self, if_true]

theorem beforeExit_refl (hrefs : RefsHeldOnce s) (ref : BagRef) : BeforeExit ref s s :=
  ⟨hrefs, rfl, rfl, rfl, rfl, rfl, fun _ _ => rfl, rfl, fun _ => rfl, rfl, rfl⟩

theorem BeforeExit.update {w : State} (h : BeforeExit ref s w) (hr : (inTable w ref).isSome = true)
    {f : Record → Record} (hf : ∀ x, (f x).ref = x.ref) : BeforeExit ref s (updateRecord ref f w) := by
  have hrefs := (sameRefs_updateRecord (s := w) ref hf).refsHeldOnce h.refs
  rw [updateRecord_of_inTable h.refs hr] at hrefs ⊢
  refine ⟨hrefs, ?_, h.pending, h.expected, h.outbound, h.line, h.counters, h.exceptions, fun k => ?_,
    h.position, h.start⟩
  · exact (without_updateIn _ _ hf).trans h.table
  · rw [leave_outlet, ← leave_outlet ref w k]
    exact h.outlets k

/-- A record past its offer point. -/
def pastPoint (ref : BagRef) (s : State) : State :=
  updateRecord ref (fun r => { r with pastOfferPoint := true }) s

theorem takeOfferPoint_eq (r : Record) (s : State) : takeOfferPoint r s
    = if r.state = .onBelt then becomeExiting r.ref (pastPoint r.ref s) else pastPoint r.ref s := rfl

theorem inTable_pastPoint (hr : inTable s ref = some r) :
    inTable (pastPoint ref s) ref = some { r with pastOfferPoint := true } := by
  rw [pastPoint, inTable_updateRecord_same (by intro _; rfl), hr]
  rfl

/-- An event of the belt that ends with the offer passing on and the permit and arbiter behind it. -/
def offeredOn (s : State) : State := arbitrate (decidePermit (takeUpOffer s))

theorem offeredOn_spec (hrefs : RefsHeldOnce s) : SameBags (offeredOn s).track.table s.track.table
    ∧ ((offeredOn s).handoff.outbound.map fun o => (o.ref, o.attempts))
      = (if s.handoff.outbound = none then (nextOffered s.track.table).map fun x => (x.ref, 0)
        else s.handoff.outbound.map fun o => (o.ref, o.attempts))
    ∧ (offeredOn s).supervision.counters = s.supervision.counters
    ∧ (offeredOn s).resolution = s.resolution ∧ (offeredOn s).outlets = s.outlets
    ∧ (offeredOn s).position = s.position ∧ (offeredOn s).start = s.start
    ∧ (offeredOn s).line.answers = s.line.answers ∧ (offeredOn s).line.notices = s.line.notices := by
  obtain ⟨hbags, -, -, -⟩ := takeUpOffer_spec hrefs
  refine ⟨?_, ?_, ?_, ?_, ?_, ?_, ?_, ?_, ?_⟩
  · simpa [offeredOn, decidePermit] using hbags
  · rw [offeredOn, arbitrate_outbound]
    exact takeUpOffer_outbound s
  · simp [offeredOn, decidePermit]
  · simp [offeredOn, decidePermit]
  · simp [offeredOn, decidePermit]
  · simp [offeredOn, decidePermit]
  · simp [offeredOn, decidePermit]
  · simp [offeredOn, decidePermit]
  · simp [offeredOn, decidePermit]

theorem find_of_sameBags (h : SameBags t.track.table s.track.table) (hr : inTable s ref = some r) :
    ∃ r', inTable t ref = some r' ∧ apartFromOffer r' = apartFromOffer r := by
  have hfind := sameBags_find h ref
  rw [show findIn s.track.table ref = some r from hr] at hfind
  exact Option.map_eq_some_iff.mp hfind

/-- The front-most of the EXITING records, one that has just become so among them. -/
theorem nextOffered_updateIn {l : List Record} {f : Record → Record} (hf : ∀ x, (f x).ref = x.ref)
    (hstate : ∀ x, (f x).state = .exiting) (hheld : ∀ x, (f x).heldOffer = x.heldOffer) :
    (nextOffered (updateIn l ref f)).map (fun x => (x.ref, 0))
      = (l.find? fun x => decide (x.state = .exiting ∨ x.ref = ref) && !x.heldOffer).map
        fun x => (x.ref, 0) := by
  have hpred : ((fun x => decide (x.state = .exiting) && !x.heldOffer)
      ∘ fun x => if x.ref = ref then f x else x)
      = fun x : Record => decide (x.state = .exiting ∨ x.ref = ref) && !x.heldOffer := by
    funext x
    by_cases hx : x.ref = ref <;> simp [hx, hstate, hheld]
  rw [nextOffered, updateIn, List.find?_map, hpred, Option.map_map]
  congr 1
  funext x
  by_cases hx : x.ref = ref <;> simp [hx, hf]

/-- A record that becomes EXITING at its offer point. -/
def exitingPast (x : Record) : Record := { x with pastOfferPoint := true, state := .exiting }

theorem exitingPast_ref (x : Record) : (exitingPast x).ref = x.ref := rfl

/-- Settles O39: the offer point and the segment exit, with the offer's passing on. -/
theorem offerPointAndSegmentExit : Obligations.OfferPointAndSegmentExit := by
  refine ⟨?_, ?_⟩
  · intro s r hb hrun hr hpoint hstays
    obtain ⟨-, -, hrefs⟩ := hb
    have hexec := exec_offerPoint hrun hr hpoint
    have hpast := inTable_pastPoint hr
    have hrefsPast : RefsHeldOnce (pastPoint r.ref s) :=
      (sameRefs_updateRecord (s := s) r.ref (by intro _; rfl)).refsHeldOnce hrefs
    by_cases hstate : r.state = .onBelt
    · rw [takeOfferPoint_eq, if_pos hstate, becomeExiting_of_stays hpast fun p hp => hstays hstate p hp]
        at hexec
      obtain ⟨w, hw⟩ : ∃ w, w = madeExiting r.ref (pastPoint r.ref s) := ⟨_, rfl⟩
      have hweq : w = { s with track := { s.track with
          table := updateIn s.track.table r.ref exitingPast } } := by
        rw [hw, madeExiting, pastPoint, updateRecord_updateRecord _ _ _ _ (by intro _; rfl),
          updateRecord_of_inTable hrefs (by rw [hr]; rfl)]
        rfl
      have hwin : inTable w r.ref = some (exitingPast r) := by
        rw [hw, inTable_madeExiting hpast]
        rfl
      have hwrefs : RefsHeldOnce w := by
        rw [hw]
        exact (sameRefs_updateRecord r.ref (by intro _; rfl)).refsHeldOnce hrefsPast
      rw [← hw] at hexec
      obtain ⟨hbags, hout, hcounters, hres, houtlets, hposition, hstart, -, -⟩ := offeredOn_spec hwrefs
      obtain ⟨r', hr', hapart⟩ := find_of_sameBags hbags hwin
      refine ⟨r', _, hexec, hr', ?_, ?_, fun other hother => ?_, fun _ hnone => ?_, fun o ho => ?_, ?_, ?_,
        ?_, ?_, ?_⟩
      · rw [hapart, if_pos hstate]
        rfl
      · refine (sameBags_refs hbags).trans ?_
        rw [hweq]
        exact updateIn_map_ref _ _ _ exitingPast_ref
      · refine (sameBags_find hbags other).trans (congrArg _ ?_)
        rw [hweq]
        exact findIn_updateIn_other _ _ exitingPast_ref hother
      · refine hout.trans ?_
        rw [if_pos (by rw [hweq]; exact hnone), hweq]
        exact nextOffered_updateIn exitingPast_ref (fun _ => rfl) (fun _ => rfl)
      · refine hout.trans ?_
        have hwo : w.handoff.outbound = some o := by rw [hweq]; exact ho
        rw [hwo]
        rfl
      · exact hcounters.trans (by rw [hweq])
      · exact hres.trans (by rw [hweq])
      · exact houtlets.trans (by rw [hweq])
      · exact hposition.trans (by rw [hweq])
      · exact hstart.trans (by rw [hweq])
    · rw [takeOfferPoint_eq, if_neg hstate] at hexec
      have htable : (arbitrate (decidePermit (pastPoint r.ref s))).track = (pastPoint r.ref s).track := by
        simp [decidePermit]
      refine ⟨_, _, hexec, (inTable_congr (congrArg _ htable) _).trans hpast, ?_, ?_, fun other hother => ?_,
        fun h => absurd h hstate, fun o ho => ?_, ?_, ?_, ?_, ?_, ?_⟩
      · rw [if_neg hstate]
      · rw [htable]
        exact updateIn_map_ref _ _ _ (by intro _; rfl)
      · rw [inTable_congr (congrArg _ htable)]
        exact congrArg _ (inTable_updateRecord_other (by intro _; rfl) hother)
      · rw [arbitrate_outbound]
        show Option.map _ s.handoff.outbound = _
        rw [ho]
        rfl
      · simp [decidePermit, pastPoint]
      · simp [decidePermit, pastPoint]
      · simp [decidePermit, pastPoint]
      · simp [decidePermit, pastPoint]
      · simp [decidePermit, pastPoint]
  · intro s r p i hb hrun hr htrail hreached hi
    obtain ⟨-, -, hrefs⟩ := hb
    rcases hi with ⟨rfl, hstate⟩ | ⟨rfl, hstate, hpoint⟩
    · exact ⟨_, exec_segmentExit hrun hr (exitReached_iff.mpr ⟨hstate, p, htrail, hreached⟩),
        leavesAbandoned_of hrefs hr (beforeExit_refl hrefs r.ref)⟩
    · have hexec := exec_offerPoint hrun hr hpoint
      have hpast := inTable_pastPoint hr
      rw [takeOfferPoint_eq, if_pos hstate, becomeExiting_of_exit hpast htrail hreached] at hexec
      refine ⟨_, hexec, leavesAbandoned_of hrefs hr ?_⟩
      have hbefore : BeforeExit r.ref s (pastPoint r.ref s) :=
        (beforeExit_refl hrefs r.ref).update (by rw [hr]; rfl) (by intro _; rfl)
      exact hbefore.update (by rw [hpast]; rfl) (by intro _; rfl)

end

end Sys2Proof.Machine

/-! # Push misses, handed-over records and deliveries (sections 4.6 and 7.1) -/

namespace Sys2Proof.Machine

section
variable {s t u : State} {ref other : BagRef} {r : Record}

/-! ## The confirm timer (R82) -/

theorem exec_confirmTimeout {n : Nat} (hrun : s.start.node = .run) (hr : inTable s ref = some r)
    (hstate : r.state = .diverting) (htimer : r.confirmTimer = some n) :
    exec (.confirmTimeout ref) s = .next (arbitrate (decidePermit (pushMiss r s))) := by
  show execConfirmTimeout ref s = _
  simp only [execConfirmTimeout, hr, inRun_of_run hrun, hstate, htimer, Option.isSome_some, and_self,
    if_true]

/-- A DIVERTING record that has been refused, off its outlet. -/
def missed (ref : BagRef) (s : State) : State := refuse .pushMiss ref (endDiverting ref s)

theorem pushMiss_eq (r : Record) (s : State) : pushMiss r s
    = if r.pastOfferPoint then becomeExiting r.ref (missed r.ref s) else missed r.ref s := rfl

theorem endDiverting_outlet (ref : BagRef) (s : State) (k : OutletNo) :
    (endDiverting ref s).outlets.get k = { s.outlets.get k with
      diverting := (s.outlets.get k).diverting.filter fun x => decide (x ≠ ref) } := by
  simp [endDiverting]

theorem missed_eq (hrefs : RefsHeldOnce s) (hr : inTable s ref = some r) : missed ref s = { s with
    track := { s.track with
      table := updateIn s.track.table ref (refusedAs s.start.station .pushMiss) }
    outlets := (endDiverting ref s).outlets
    supervision := raised .refusals s.supervision } :=
  refuse_eq (s := endDiverting ref s) hrefs (by rw [show inTable (endDiverting ref s) ref = _ from hr]; rfl)

theorem inTable_missed (hrefs : RefsHeldOnce s) (hr : inTable s ref = some r) :
    inTable (missed ref s) ref = some (refusedAs s.start.station .pushMiss r) :=
  (inTable_of_updateIn (refusedAs_ref _ _) (congrArg (·.track.table) (missed_eq hrefs hr)) hr).1

theorem refsHeldOnce_missed (hrefs : RefsHeldOnce s) (hr : inTable s ref = some r) :
    RefsHeldOnce (missed ref s) := by
  rw [missed_eq hrefs hr]
  exact SameRefs.refsHeldOnce ⟨updateIn_map_ref _ _ _ (refusedAs_ref _ _), rfl, rfl⟩ hrefs

theorem beforeExit_missed (hrefs : RefsHeldOnce s) (hr : inTable s ref = some r) :
    BeforeExit ref s (missed ref s) := by
  have hrefs' := refsHeldOnce_missed hrefs hr
  rw [missed_eq hrefs hr] at hrefs' ⊢
  refine ⟨hrefs', ?_, rfl, rfl, rfl, rfl, fun c hc => raised_get_other _ hc, rfl, fun k => ?_, rfl, rfl⟩
  · exact without_updateIn _ _ (refusedAs_ref _ _)
  · rw [leave_outlet, leave_outlet]
    simp only [endDiverting_outlet, List.filter_filter, Bool.and_self]

/-- Settles O38: a push miss puts the record back on the belt, or lets it leave. -/
theorem confirmTimeoutIsPushMiss : Obligations.ConfirmTimeoutIsPushMiss := by
  intro s r n gone hb hrun hr hstate htimer hgone
  obtain ⟨-, -, hrefs⟩ := hb
  have hexec := exec_confirmTimeout hrun hr hstate htimer
  have hmissed := missed_eq hrefs hr
  have hin := inTable_missed hrefs hr
  have hrefs' := refsHeldOnce_missed hrefs hr
  rw [pushMiss_eq] at hexec
  refine ⟨fun hstays => ?_, fun hleaves => ?_⟩
  · cases hpast : r.pastOfferPoint with
    | false =>
      rw [hpast, if_neg Bool.false_ne_true] at hexec
      obtain ⟨hposition, htable, hres, houtlets, -, hstart, -⟩ :=
        arbitrate_rest (s := decidePermit (missed r.ref s))
      obtain ⟨-, -, -, -, hanswers, hnotices, -⟩ := arbitrate_line_rest (decidePermit (missed r.ref s))
      refine ⟨_, _, hexec, (inTable_congr (congrArg _ htable) _).trans hin, ?_, ?_, fun k => ?_, ?_, ?_, ?_,
        ?_, ?_, ?_⟩
      · simp [refusedAs]
      · rw [htable, hmissed]
        exact updateIn_map_ref _ _ _ (refusedAs_ref _ _)
      · rw [houtlets, ← endDiverting_outlet, hmissed]
        rfl
      · rw [(arbitrate_supervision_rest _).1, hmissed]
        rfl
      · rw [hres, hmissed]
        rfl
      · rw [hposition, hmissed]
        rfl
      · rw [hstart, hmissed]
        rfl
      · rw [hanswers, hmissed]
        rfl
      · rw [hnotices, hmissed]
        rfl
    | true =>
      have hnot : ∀ p, r.trail = some p → reached s (ahead p s.start.image.segmentLength) = false := by
        intro p hp
        rw [← Bool.not_eq_true]
        exact fun hreached => hstays (hgone.mpr ⟨hpast, p, hp, hreached⟩)
      have hnot' : ∀ p, (refusedAs s.start.station .pushMiss r).trail = some p →
          reached (missed r.ref s) (ahead p (missed r.ref s).start.image.segmentLength) = false := by
        rw [hmissed]
        exact hnot
      rw [hpast, if_pos rfl, becomeExiting_of_stays hin hnot'] at hexec
      obtain ⟨w, hw⟩ : ∃ w, w = madeExiting r.ref (missed r.ref s) := ⟨_, rfl⟩
      have hwrefs : RefsHeldOnce w := by
        rw [hw]
        exact (sameRefs_updateRecord r.ref (by intro _; rfl)).refsHeldOnce hrefs'
      have hwin := inTable_madeExiting hin
      have hweq : w = { missed r.ref s with track := { (missed r.ref s).track with
          table := updateIn (missed r.ref s).track.table r.ref
            fun r => { r with state := .exiting } } } := by
        rw [hw, madeExiting, updateRecord_of_inTable hrefs' (by rw [hin]; rfl)]
      rw [← hw] at hexec hwin
      obtain ⟨hbags, -, hcounters, hres, houtlets, hposition, hstart, hanswers, hnotices⟩ :=
        offeredOn_spec hwrefs
      obtain ⟨r', hr', hapart⟩ := find_of_sameBags hbags hwin
      refine ⟨r', _, hexec, hr', ?_, ?_, fun k => ?_, ?_, ?_, ?_, ?_, ?_, ?_⟩
      · rw [hapart]
        rfl
      · refine (sameBags_refs hbags).trans ?_
        rw [hweq, hmissed]
        exact (updateIn_map_ref _ _ _ (by intro _; rfl)).trans
          (updateIn_map_ref _ _ _ (refusedAs_ref _ _))
      · refine (congrArg (·.get k) houtlets).trans ?_
        rw [← endDiverting_outlet, hweq, hmissed]
      · exact hcounters.trans (by rw [hweq, hmissed])
      · exact hres.trans (by rw [hweq, hmissed])
      · exact hposition.trans (by rw [hweq, hmissed])
      · exact hstart.trans (by rw [hweq, hmissed])
      · exact hanswers.trans (by rw [hweq, hmissed])
      · exact hnotices.trans (by rw [hweq, hmissed])
  · obtain ⟨hpast, p, hp, hreached⟩ := hgone.mp hleaves
    have hreached' : reached (missed r.ref s)
        (ahead p (missed r.ref s).start.image.segmentLength) = true := by
      rw [hmissed]
      exact hreached
    rw [hpast, if_pos rfl, becomeExiting_of_exit hin hp hreached'] at hexec
    have hbefore := (beforeExit_missed hrefs hr).update (f := fun r => { r with state := .exiting })
      (by rw [hin]; rfl) (fun _ => rfl)
    refine ⟨_, hexec, leavesAbandoned_of hrefs hr hbefore, ?_⟩
    rw [State.counter, (arbitrate_supervision_rest _).1]
    show (takeExit r.ref _).counter .refusals = _
    rw [takeExit, bump_eq]
    refine (raised_get_other _ (by decide)).trans ((leaveTable_counter (by decide) _ _).trans ?_)
    rw [madeExiting, hmissed]
    exact raised_get_same _ _

/-! ## A record handed over (R131, R132) -/

theorem length_without {l : List Record} (hnodup : (l.map (·.ref)).Nodup)
    (h : (findIn l ref).isSome = true) : (without ref l).length = l.length - 1 := by
  induction l with
  | nil => simp [findIn] at h
  | cons x l ih =>
    obtain ⟨hx, hl⟩ := List.nodup_cons.mp hnodup
    by_cases hxr : x.ref = ref
    · rw [without, List.filter_cons_of_neg (by simp [hxr]),
        filter_refs_absent (findIn_eq_none.mpr (hxr ▸ hx))]
      rfl
    · have hrest : (findIn l ref).isSome = true := by
        rwa [findIn, List.find?_cons_of_neg (by simp [hxr])] at h
      have hpos : 0 < l.length := List.length_pos_iff.mpr fun hnil => by simp [hnil, findIn] at hrest
      rw [without, List.filter_cons_of_pos (by simp [hxr]), List.length_cons]
      have := ih hl hrest
      rw [without] at this
      rw [this, List.length_cons]
      omega

theorem occupancy_leave (hrefs : RefsHeldOnce s) (h : (inTable s ref).isSome = true) :
    occupancy (leave ref s) = s.track.table.length - 1 := by
  rw [occupancy, leave_track]
  exact length_without (refsHeldOnce_iff.mp hrefs).1 h

/-- The end of an event in which a record has left the track table. -/
def gone (ref : BagRef) (s : State) : State := arbitrate (decidePermit (leaveTable ref s))

theorem gone_supervision (ref : BagRef) (s : State) :
    (gone ref s).supervision.counters = (leaveTable ref s).supervision.counters
      ∧ (gone ref s).supervision.crowded = (leaveTable ref s).supervision.crowded := by
  simp [gone, decidePermit]

theorem gone_rest (ref : BagRef) (s : State) : (gone ref s).track = (leaveTable ref s).track
    ∧ ((gone ref s).handoff.pendingOffers = (leaveTable ref s).handoff.pendingOffers
      ∧ (gone ref s).handoff.expected = (leaveTable ref s).handoff.expected)
    ∧ (gone ref s).resolution = (leave ref s).resolution ∧ (gone ref s).position = s.position
    ∧ (gone ref s).start = s.start ∧ (gone ref s).line.receiver = s.line.receiver := by
  have hreceiver := (leaveTable_line_rest ref s).2.1
  simp [gone, decidePermit, leaveTable_resolution, hreceiver]

/-- What a record's leaving of the track table does to the crowd (R158, R159). -/
theorem gone_crowd (hrefs : RefsHeldOnce s) (h : (inTable s ref).isSome = true) {left : Nat}
    (hleft : left = s.track.table.length - 1) :
    ((gone ref s).supervision.crowded = true ↔
        s.supervision.crowded = true ∧ s.start.image.lowWater < left)
      ∧ (s.line.notices.length < 8 → (gone ref s).line.notices = s.line.notices
          ++ if s.supervision.crowded = true ∧ left ≤ s.start.image.lowWater
            then [⟨31, .crowd, [0, byteOf left]⟩] else []) := by
  have hocc := (occupancy_leave hrefs h).trans hleft.symm
  have hcrowded : (leave ref s).supervision.crowded = s.supervision.crowded := by simp
  have hlow : (leave ref s).start = s.start := by simp
  have hnotices : (leave ref s).line.notices = s.line.notices := (leave_line_rest ref s).2.1
  refine ⟨?_, fun hroom => ?_⟩
  · rw [(gone_supervision ref s).2, leaveTable_supervision, occupancyFell_crowded, hcrowded, hlow, hocc]
  · have hline : (gone ref s).line.notices = (occupancyFell (leave ref s)).line.notices := by
      rw [gone, (arbitrate_line_rest _).2.2.2.2.2.1, decidePermit_line, leaveTable_line]
    rw [hline, occupancyFell_notices (by rwa [hnotices]), hnotices, calmNotices, hcrowded, hlow, hocc]

theorem exec_handedOver {i : Instr} {k : FrameKind} {body : List Byte} {f : InFrame} {o : Outbound}
    (hrun : s.start.node = .run)
    (hi : i = .takeReceived body ∧ k = .take ∨ i = .spurnReceived body ∧ k = .spurn ∧ r.stray = none)
    (hf : handedFrame s k body = some f) (hsrc : f.source = s.start.image.downstream)
    (ho : s.handoff.outbound = some o) (href : payloadRef f.payload = o.ref) (hstage : o.stage ≠ .spent)
    (hr : inTable s o.ref = some r) : exec i s = .next (gone o.ref { frameOver s with
      supervision := if k = .spurn then raised .spurnedOffers s.supervision else s.supervision }) := by
  rcases hi with ⟨rfl, rfl⟩ | ⟨rfl, rfl, hstray⟩
  · show execTakeReceived body s = _
    rw [execTakeReceived, takeAnswer_of_downstream hrun hf hsrc, answeredOffer_eq ho href,
      if_neg hstage] <;> rfl
  · rw [exec_spurn hrun hf hsrc ho href hstage, if_pos rfl, spurnAnswer,
      show inTable (frameOver s) o.ref = some r from hr]
    dsimp only
    rw [if_neg (by simp [hstray]), bump_eq]
    rfl

/-- Settles O41: a TAKE, or a SPURN of a record without a mark, hands the record over. -/
theorem answersHandTheRecordOver : Obligations.AnswersHandTheRecordOver := by
  intro s i k body f o r hb hrun hi hf hsrc ho href hstage hr
  obtain ⟨-, -, hrefs⟩ := hb
  have hexec := exec_handedOver hrun hi hf hsrc ho href hstage hr
  obtain ⟨sup, hsup⟩ : ∃ sup, sup = if k = .spurn then raised .spurnedOffers s.supervision
    else s.supervision := ⟨_, rfl⟩
  have hcrowded : sup.crowded = s.supervision.crowded := by
    rw [hsup]
    split <;> rfl
  obtain ⟨w, hw⟩ : ∃ w, w = { frameOver s with supervision := sup } := ⟨_, rfl⟩
  rw [← hsup, ← hw] at hexec
  have hwtrack : w.track = s.track := by rw [hw]; rfl
  have hwhandoff : w.handoff = s.handoff := by rw [hw]; rfl
  have hwstart : w.start = s.start := by rw [hw]; rfl
  have hwnotices : w.line.notices = s.line.notices := by rw [hw]; rfl
  have hwcrowded : w.supervision.crowded = s.supervision.crowded := by rw [hw]; exact hcrowded
  have hwin : (inTable w o.ref).isSome = true := by
    rw [inTable_congr (congrArg _ hwtrack), hr]
    rfl
  have hwrefs : RefsHeldOnce w := by rw [hw]; exact hrefs
  have hwo : w.handoff.outbound = some o := by rw [hwhandoff, ho]
  obtain ⟨hbags, -, hpend, hexp⟩ := leaveTable_bags o.ref hwrefs
  obtain ⟨hnotPend, hnotExp⟩ := not_inbound_of_inTable hwrefs hwin
  rw [without, filter_refs_absent hnotPend, hwhandoff] at hpend
  rw [without, filter_refs_absent hnotExp, hwhandoff] at hexp
  obtain ⟨htrack, hlists, hres, hposition, hstart, hreceiver⟩ := gone_rest o.ref w
  have hout := leaveTable_outbound o.ref w
  rw [hwo, if_pos (by simp [Option.filter]), hwtrack] at hout
  have hwithdrawn : OfferWithdrawn s (decidePermit (leaveTable o.ref w)) := by
    have h := leaveTable_withdraws hwo rfl
    rw [OfferWithdrawn, OfferFrameWaits, hwhandoff,
      show w.line.transmitter = s.line.transmitter by rw [hw]; rfl,
      show w.line.turn = s.line.turn by rw [hw]; rfl] at h
    exact h
  have hcounter {c : Counter} (hc : c ≠ .droppedNotices) :
      (gone o.ref w).counter c = sup.counters.get c := by
    rw [State.counter, (gone_supervision o.ref w).1]
    refine (leaveTable_counter hc o.ref w).trans ?_
    rw [hw]
    rfl
  refine ⟨_, hexec, ?_, ?_, ?_, ?_, ⟨_, rfl, hwithdrawn⟩, fun h htr => sending_of_withdrawn hwithdrawn htr,
    ?_, ?_, fun left hleft => ?_, permitFollows_arbitrate_decidePermit _, ?_, ?_, ?_, ?_, ?_, ?_⟩
  · rw [htrack, ← hwtrack]
    exact hbags
  · rw [heldRecord_congr (congrArg _ htrack) hlists.1 hlists.2]
    exact heldRecord_leaveTable o.ref hwrefs
  · rw [hres]
    exact not_requested_leave _ _
  · rw [gone, arbitrate_outbound]
    exact hout
  · rw [hcounter (by decide), hsup]
    split
    · exact raised_get_same _ _
    · rfl
  · rw [hcounter (by decide), hsup]
    split
    · exact raised_get_other _ (by decide)
    · rfl
  · have hcrowd := gone_crowd hwrefs hwin (hleft.trans (by rw [hwtrack]))
    rwa [hwcrowded, hwstart, hwnotices] at hcrowd
  · rw [hreceiver, hw]
    rfl
  · rw [hlists.2, hexp]
  · rw [hlists.1, hpend]
  · rw [hres, leave_resolution, hw]
    rfl
  · rw [hposition, hw]
    rfl
  · rw [hstart, hwstart]

end

end Sys2Proof.Machine

/-! # Entries to a chute (sections 4.6, 4.7 and 5.4) -/

namespace Sys2Proof.Machine

section
variable {s t u : State} {ref other : BagRef} {r : Record}

/-! ## A STRAY payload is one (R101) -/

theorem bytes_of_pair {a b c d : Byte} (h : a.toNat * 256 + b.toNat = c.toNat * 256 + d.toNat) :
    a = c ∧ b = d := by
  have ha := a.isLt
  have hb := b.isLt
  have hc := c.isLt
  have hd := d.isLt
  constructor <;> apply BitVec.eq_of_toNat_eq <;> omega

theorem exists_strayCause (c : StrayCause) : ∃ n : Nat, strayCauses[n]? = some c := by
  cases c
  exacts [⟨0, rfl⟩, ⟨1, rfl⟩, ⟨2, rfl⟩, ⟨3, rfl⟩, ⟨4, rfl⟩, ⟨5, rfl⟩, ⟨6, rfl⟩, ⟨7, rfl⟩]

theorem exists_refusalCause (c : RefusalCause) : ∃ n : Nat, ([RefusalCause.full, .held, .noCart, .faulted, .busy,
    .gap, .oversize, .pushMiss] : List RefusalCause)[n]? = some c := by
  cases c
  exacts [⟨0, rfl⟩, ⟨1, rfl⟩, ⟨2, rfl⟩, ⟨3, rfl⟩, ⟨4, rfl⟩, ⟨5, rfl⟩, ⟨6, rfl⟩, ⟨7, rfl⟩]

theorem refusalPlaces_unique {k : Nat} {l : List RefusalEntry} {p q : List Byte}
    (hp : RefusalPlaces k l p) (hq : RefusalPlaces k l q) : p.getD k 0 = q.getD k 0
      ∧ ∀ i < 4, p.getD (k + 1 + 2 * i) 0 = q.getD (k + 1 + 2 * i) 0
        ∧ p.getD (k + 2 + 2 * i) 0 = q.getD (k + 2 + 2 * i) 0 := by
  obtain ⟨hpCount, hpEntry, hpZero⟩ := hp
  obtain ⟨hqCount, hqEntry, hqZero⟩ := hq
  refine ⟨hpCount.trans hqCount.symm, fun i hi => ?_⟩
  cases he : l[i]? with
  | none =>
    have hlen := List.getElem?_eq_none_iff.mp he
    obtain ⟨hp1, hp2⟩ := hpZero i hi hlen
    obtain ⟨hq1, hq2⟩ := hqZero i hi hlen
    exact ⟨hp1.trans hq1.symm, hp2.trans hq2.symm⟩
  | some e =>
    obtain ⟨n, hn⟩ := exists_refusalCause e.cause
    obtain ⟨hp1, hp2⟩ := hpEntry i hi e he
    obtain ⟨hq1, hq2⟩ := hqEntry i hi e he
    exact ⟨hp1.trans hq1.symm, (hp2 n _ hn rfl).trans (hq2 n _ hn rfl).symm⟩

theorem strayPayloadOf_unique {p q : List Byte} (hp : StrayPayloadOf r p) (hq : StrayPayloadOf r q) :
    p = q := by
  obtain ⟨hpLen, ⟨hpRef, hpCabin, hpTag⟩, hpNone, hpCause, hpLaps, hpRelabelled, hpRefusals⟩ := hp
  obtain ⟨hqLen, ⟨hqRef, hqCabin, hqTag⟩, hqNone, hqCause, hqLaps, hqRelabelled, hqRefusals⟩ := hq
  obtain ⟨h0, h1⟩ := bytes_of_pair (hpRef.trans hqRef.symm)
  obtain ⟨h2, h3⟩ := bytes_of_pair (hpCabin.trans hqCabin.symm)
  have h4 := hpTag.trans hqTag.symm
  have h5 : p.getD 5 0 = q.getD 5 0 := by
    cases hstray : r.stray with
    | none => exact (hpNone hstray).trans (hqNone hstray).symm
    | some c =>
      obtain ⟨n, hn⟩ := exists_strayCause c
      exact (hpCause n c hn hstray).trans (hqCause n c hn hstray).symm
  have h6 := hpLaps.trans hqLaps.symm
  have h7 := hpRelabelled.trans hqRelabelled.symm
  obtain ⟨h8, hentries⟩ := refusalPlaces_unique hpRefusals hqRefusals
  obtain ⟨h9, h10⟩ := hentries 0 (by decide)
  obtain ⟨h11, h12⟩ := hentries 1 (by decide)
  obtain ⟨h13, h14⟩ := hentries 2 (by decide)
  obtain ⟨h15, h16⟩ := hentries 3 (by decide)
  refine List.ext_getElem (hpLen.trans hqLen.symm) fun i hi hi' => ?_
  rw [← List.getD_eq_getElem p 0 hi, ← List.getD_eq_getElem q 0 hi']
  rw [hpLen] at hi
  interval_cases i <;> assumption

/-! ## The fill count (R84) -/

/-- A fill count's next number: it stops at 255. -/
def nextFill (n : Nat) : Nat := if n < 255 then n + 1 else n

theorem raiseFill_eq (k : OutletNo) (s : State) : raiseFill k s = { s with
    outlets := s.outlets.set k { s.outlets.get k with fill := nextFill (s.outlets.get k).fill }
    supervision := { s.supervision with flags := { s.supervision.flags with
      countLimit := s.supervision.flags.countLimit || decide ((s.outlets.get k).fill = 254) } } } := by
  unfold raiseFill nextFill
  by_cases hfull : 255 ≤ (s.outlets.get k).fill
  · have hnot : ¬(s.outlets.get k).fill = 254 := by omega
    have hlt : ¬(s.outlets.get k).fill < 255 := by omega
    dsimp only
    rw [if_neg hlt, decide_eq_false hnot, Bool.or_false]
    refine (if_pos hfull).trans ?_
    have hsame : s.outlets.set k { s.outlets.get k with fill := (s.outlets.get k).fill } = s.outlets :=
      Quad_set_get_self _ _
    rw [hsame]
  · have hlt : (s.outlets.get k).fill < 255 := by omega
    dsimp only
    rw [if_pos hlt]
    refine (if_neg hfull).trans ?_
    by_cases hlast : (s.outlets.get k).fill = 254
    · rw [decide_eq_true hlast, Bool.or_true]
      exact if_pos (by rw [hlast]; rfl)
    · rw [decide_eq_false hlast, Bool.or_false]
      exact if_neg fun h => hlast (Nat.succ.inj h)

/-! ## An entry -/

theorem exec_chuteEntry {k : OutletNo} (hrun : s.start.node = .run)
    (hrole : (s.start.image.outlets.get k).role ≠ .unused) :
    exec (.chuteEntry k) s = .next (arbitrate (decidePermit (raiseFill k (chuteEntry k s)))) :=
  congrArg Host.Outcome.next (if_pos (outletActive_of_run hrun hrole))

theorem chuteEntry_of_diverting {k : OutletNo} {rest : List BagRef}
    (hdiverting : (s.outlets.get k).diverting = r.ref :: rest) (hr : inTable s r.ref = some r) :
    chuteEntry k s = confirm k r s := by
  simp only [chuteEntry, hdiverting, hr]

theorem chuteEntry_of_none {k : OutletNo} (hdiverting : (s.outlets.get k).diverting = []) :
    chuteEntry k s = { s with supervision := raised .unexpectedEntries s.supervision } := by
  rw [← bump_eq]
  simp only [chuteEntry, hdiverting]

/-- The STRAY notice of a delivery, at a STRAY outlet (R100). -/
def deliveryNotices (k : OutletNo) (r : Record) (s : State) : List OutFrame :=
  if (s.start.image.outlets.get k).role = .stray then [strayNotice s r] else []

theorem confirm_eq (k : OutletNo) (r : Record) (s : State) : confirm k r s
    = if (s.start.image.outlets.get k).role = .stray
      then queueNotice (strayNotice s r)
        (bump .straysDelivered (bump (.delivered k) (leaveTable r.ref s)))
      else bump (.delivered k) (leaveTable r.ref s) := rfl

/-- What a delivery leaves besides the record's leaving: its counters and its notice. -/
theorem confirm_rest (k : OutletNo) (r : Record) (s : State) :
    (confirm k r s).track = (leaveTable r.ref s).track
      ∧ (confirm k r s).handoff = (leaveTable r.ref s).handoff
      ∧ (confirm k r s).resolution = (leaveTable r.ref s).resolution
      ∧ (confirm k r s).outlets = (leaveTable r.ref s).outlets
      ∧ (confirm k r s).position = s.position ∧ (confirm k r s).start = s.start := by
  rw [confirm_eq]
  split <;> simp

theorem confirm_counters (k : OutletNo) (r : Record) (s : State) :
    (confirm k r s).counter (.delivered k) = nextCount (s.counter (.delivered k))
      ∧ (confirm k r s).counter .unexpectedEntries = s.counter .unexpectedEntries
      ∧ (confirm k r s).counter .straysDelivered
        = if (s.start.image.outlets.get k).role = .stray then nextCount (s.counter .straysDelivered)
          else s.counter .straysDelivered := by
  have hleft {c : Counter} (hc : c ≠ .droppedNotices) : (leaveTable r.ref s).counter c = s.counter c :=
    leaveTable_counter hc r.ref s
  have hsame (c : Counter) (u : State) : (bump c u).counter c = nextCount (u.counter c) := by
    rw [bump_eq]
    exact raised_get_same _ _
  have hother {c d : Counter} (u : State) (h : d ≠ c) : (bump c u).counter d = u.counter d := by
    rw [bump_eq]
    exact raised_get_other _ h
  rw [confirm_eq]
  split
  · rw [queueNotice_counter (by simp), queueNotice_counter (by simp), queueNotice_counter (by simp),
      hother _ (by simp), hsame, hleft (by simp), hother _ (by simp), hother _ (by simp),
      hleft (by simp), hsame, hother _ (by simp), hleft (by simp)]
    exact ⟨rfl, rfl, rfl⟩
  · rw [hsame, hleft (by simp), hother _ (by simp), hleft (by simp), hother _ (by simp),
      hleft (by simp)]
    exact ⟨rfl, rfl, rfl⟩

theorem confirm_notices {k : OutletNo} (hcalm : s.supervision.crowded = false)
    (hroom : s.line.notices.length < 8) :
    (confirm k r s).line.notices = s.line.notices ++ deliveryNotices k r s := by
  have hleft : (leaveTable r.ref s).line.notices = s.line.notices := by
    have hnotices : (leave r.ref s).line.notices = s.line.notices := (leave_line_rest r.ref s).2.1
    have hnone : calmNotices (leave r.ref s) = [] := if_neg (by simp [hcalm])
    rw [leaveTable_line, occupancyFell_notices (by rwa [hnotices]), hnotices, hnone, List.append_nil]
  rw [confirm_eq, deliveryNotices]
  split
  · rw [queueNotice_of_room (by simpa [hleft] using hroom)]
    simp [hleft]
  · simp [hleft]

/-- Settles O37: an entry to the chute delivers the oldest DIVERTING record, or is unexpected. -/
theorem chuteEntriesDeliver : Obligations.ChuteEntriesDeliver := by
  refine ⟨?_, ?_⟩
  · intro s k r rest payload hb hrun hrole hdiverting hr hpayload
    obtain ⟨-, -, hrefs⟩ := hb
    have hexec := exec_chuteEntry hrun hrole
    rw [chuteEntry_of_diverting hdiverting hr, raiseFill_eq] at hexec
    obtain ⟨w, hw⟩ : ∃ w, w = confirm k r s := ⟨_, rfl⟩
    obtain ⟨htrack, hhandoff, hres, houtlets, hposition, hstart⟩ := confirm_rest k r s
    obtain ⟨hdelivered, hunexpected, hstrays⟩ := confirm_counters k r s
    rw [← hw] at hexec htrack hhandoff hres houtlets hposition hstart hdelivered hunexpected hstrays
    obtain ⟨z, hz⟩ : ∃ z, z = ({ w with
        outlets := w.outlets.set k { w.outlets.get k with fill := nextFill (w.outlets.get k).fill }
        supervision := { w.supervision with flags := { w.supervision.flags with
          countLimit := w.supervision.flags.countLimit
            || decide ((w.outlets.get k).fill = 254) } } } : State) := ⟨_, rfl⟩
    rw [← hz] at hexec
    obtain ⟨htPosition, htTrack, htRes, htOutlets, -, htStart, -⟩ :=
      arbitrate_rest (s := decidePermit z)
    obtain ⟨htPend, htExp⟩ := arbitrate_handoff_lists (decidePermit z)
    obtain ⟨hbags, htrackEq, hpend, hexp⟩ := leaveTable_bags r.ref hrefs
    have hcounter (c : Counter) : (arbitrate (decidePermit z)).counter c = w.counter c := by
      rw [State.counter, (arbitrate_supervision_rest _).1, hz]
      rfl
    have hwOutlet (j : OutletNo) : w.outlets.get j = { s.outlets.get j with
        diverting := (s.outlets.get j).diverting.filter fun x => decide (x ≠ r.ref) } := by
      rw [houtlets, leaveTable_outlets, leave_outlet]
    have hzOutlet (j : OutletNo) : z.outlets.get j = { w.outlets.get j with
        fill := if j = k then nextFill (w.outlets.get j).fill else (w.outlets.get j).fill } := by
      rw [hz]
      by_cases hj : j = k
      · rw [if_pos hj, hj]
        exact Quad_get_set_same _ _ _
      · rw [if_neg hj]
        exact Quad_get_set_other _ _ hj
    have htOutlet (j : OutletNo) : (arbitrate (decidePermit z)).outlets.get j = z.outlets.get j := by
      rw [htOutlets]
      rfl
    refine ⟨_, hexec, ?_, ?_, fun j => ?_, ?_, ?_, fun j => ⟨?_, fun hj => ?_⟩, ?_, ?_, ?_,
      fun hcalm hroom => ?_, permitFollows_arbitrate_decidePermit z, ?_, ?_, ?_, ?_⟩
    · rw [htTrack, decidePermit_eq, hz]
      show SameBags w.track.table _
      rw [htrack]
      exact hbags
    · rw [heldRecord_congr (s := leaveTable r.ref s)]
      · exact heldRecord_leaveTable r.ref hrefs
      · rw [htTrack, hz, ← htrack]
        rfl
      · rw [htPend, hz, ← hhandoff]
        rfl
      · rw [htExp, hz, ← hhandoff]
        rfl
    · rw [htOutlet, hzOutlet, hwOutlet]
      simp
    · rw [htRes, hz]
      show r.ref ∉ w.resolution.requests
      rw [hres, leaveTable_resolution]
      exact not_requested_leave _ _
    · rw [htOutlet, hzOutlet, hwOutlet, if_pos rfl]
      rfl
    · rw [htOutlet, hzOutlet, hwOutlet]
    · rw [htOutlet, hzOutlet, hwOutlet, if_neg hj]
    · rw [hcounter, hdelivered]
    · rw [hcounter, hunexpected]
    · rw [hcounter, hstrays]
    · rw [(arbitrate_line_rest _).2.2.2.2.2.1, hz]
      show w.line.notices = _
      rw [hw, confirm_notices hcalm hroom, deliveryNotices, strayNotice,
        strayPayloadOf_unique (strayPayload_places r) hpayload]
      rfl
    · rw [htPosition, hz]
      exact hposition
    · rw [htStart, hz]
      exact hstart
    · rw [htRes, hz]
      show w.resolution.exceptions = _
      rw [hres, leaveTable_resolution, leave_resolution]
    · rw [htTrack, hz]
      show w.track.bagSeq = _
      rw [htrack, htrackEq]
  · intro s k hrun hrole hdiverting
    have hexec := exec_chuteEntry hrun hrole
    rw [chuteEntry_of_none hdiverting, raiseFill_eq] at hexec
    refine ⟨_, hexec, ?_, fun c hc => ?_, ?_, fun hlast => ?_, ?_, ?_, ?_, ?_⟩
    · rw [State.counter, (arbitrate_supervision_rest _).1]
      show (raised .unexpectedEntries s.supervision).counters.get .unexpectedEntries = _
      exact raised_get_same _ _
    · rw [State.counter, (arbitrate_supervision_rest _).1]
      show (raised .unexpectedEntries s.supervision).counters.get c = _
      exact raised_get_other _ hc
    · simp [decidePermit, nextFill]
    · rw [(arbitrate_supervision_rest _).2.1]
      simp [decidePermit, hlast]
    · simp [decidePermit]
    · simp [decidePermit]
    · simp [decidePermit]
    · simp [decidePermit]

end

end Sys2Proof.Machine

/-! # Trailing edges (R27, R28) and what one record's waits can change -/

namespace Sys2Proof.Machine

section
variable {s t u : State} {ref : BagRef} {r : Record}

/-! ## Positions -/

theorem dist_ahead_behind (c : Position) {m n : Nat} (hm : m ≤ 131070) (hn : n ≤ 131070) :
    dist (ahead (behind c m) n) c = (m : Int) - n := by
  have hdiff : c - (c - BitVec.ofNat 24 m + BitVec.ofNat 24 n) = BitVec.ofNat 24 m - BitVec.ofNat 24 n := by
    abel
  rw [dist, ahead, behind, hdiff, BitVec.toInt_eq_toNat_cond, BitVec.toNat_sub, BitVec.toNat_ofNat,
    BitVec.toNat_ofNat]
  split <;> omega

theorem reached_ahead_behind {m n : Nat} (hm : m ≤ 131070) (hn : n ≤ 131070) :
    reached s (ahead (behind s.position.counter m) n) = decide (n ≤ m) := by
  rw [reached, dist_ahead_behind _ hm hn]
  exact decide_eq_decide.mpr (by omega)

theorem behind_zero (c : Position) : behind c 0 = c := BitVec.sub_zero c

theorem not_reached_ahead {n : Nat} (hlow : 1 ≤ n) (hhigh : n ≤ 131070) :
    reached s (ahead s.position.counter n) = false := by
  have h := reached_ahead_behind (s := s) (m := 0) (by omega) hhigh
  rw [behind_zero] at h
  rw [h]
  exact decide_eq_false (by omega)

/-! ## Changes that leave what the eyes and the reader have told of a record -/

/-- A record with its edges, its length, its tag and its laps as they were, and not newly EXITING. -/
structure SameTravel (x y : Record) : Prop where
  ref : y.ref = x.ref
  lead : y.lead = x.lead
  trail : y.trail = x.trail
  length : y.length = x.length
  measured : y.measuredHere = x.measuredHere
  tag : y.tag = x.tag
  laps : y.laps = x.laps
  exiting : y.state = .exiting → x.state = .exiting

theorem SameTravel.refl (x : Record) : SameTravel x x := ⟨rfl, rfl, rfl, rfl, rfl, rfl, rfl, id⟩

theorem SameTravel.trans {x y z : Record} (h : SameTravel x y) (k : SameTravel y z) : SameTravel x z :=
  ⟨k.ref.trans h.ref, k.lead.trans h.lead, k.trail.trans h.trail, k.length.trans h.length,
    k.measured.trans h.measured, k.tag.trans h.tag, k.laps.trans h.laps,
    fun hz => h.exiting (k.exiting hz)⟩

theorem updateIn_self (l : List Record) (ref : BagRef) : updateIn l ref (fun x => x) = l :=
  updateIn_fixed fun _ _ _ => rfl

/-- A fire event changes its record, and at most the outlet and the refusals beside it. -/
theorem takeFire_own (k : OutletNo) (hrefs : RefsHeldOnce s) (hr : (inTable s ref).isSome = true) :
    ∃ f, (∀ x, SameTravel x (f x)) ∧ takeFire k ref s = { s with
      track := { s.track with table := updateIn s.track.table ref f }
      supervision := (takeFire k ref s).supervision
      outlets := (takeFire k ref s).outlets } := by
  unfold takeFire
  split
  · refine ⟨fun x => { x with state := .diverting, confirmTimer := some 0 },
      fun _ => ⟨rfl, rfl, rfl, rfl, rfl, rfl, rfl, nofun⟩, ?_⟩
    rw [updateRecord_of_inTable hrefs hr]
    rfl
  · refine ⟨refusedAs s.start.station (fireRefusal s k),
      fun _ => ⟨rfl, rfl, rfl, rfl, rfl, rfl, rfl, nofun⟩, ?_⟩
    rw [refuse_eq hrefs hr]

/-- An arming changes its record, and at most the outlet, the requests and the refusals beside it. -/
theorem takeArming_own (k : OutletNo) (hrefs : RefsHeldOnce s) (hr : inTable s r.ref = some r) :
    ∃ f, (∀ x, SameTravel x (f x)) ∧ takeArming k r s = { s with
      track := { s.track with table := updateIn s.track.table r.ref f }
      resolution := (takeArming k r s).resolution
      supervision := (takeArming k r s).supervision
      outlets := (takeArming k r s).outlets } := by
  have hin : (inTable s r.ref).isSome = true := by rw [hr]; rfl
  unfold takeArming
  cases armingResult s k r with
  | oversize =>
    refine ⟨fun x => marked .oversize (refusedAs s.start.station .oversize x),
      fun _ => ⟨rfl, rfl, rfl, rfl, rfl, rfl, rfl, nofun⟩, ?_⟩
    have heq := refuse_oversize_eq hrefs hr
    obtain ⟨v, hv⟩ : ∃ v, v = (markStray .oversize r.ref (refuse .oversize r.ref s)).resolution :=
      ⟨_, rfl⟩
    dsimp only
    rw [← hv] at heq ⊢
    rw [heq]
  | gap =>
    refine ⟨refusedAs s.start.station .gap, fun _ => ⟨rfl, rfl, rfl, rfl, rfl, rfl, rfl, nofun⟩, ?_⟩
    dsimp only
    rw [refuse_eq hrefs hin]
  | tooLate =>
    refine ⟨fun x => { x with verdict := .pass, verdictFixed := true },
      fun _ => ⟨rfl, rfl, rfl, rfl, rfl, rfl, rfl, id⟩, ?_⟩
    dsimp only
    rw [updateRecord_of_inTable hrefs hin]
  | armed fire =>
    obtain ⟨g, hg⟩ : ∃ g : Record → Record, g = fun x =>
      { x with state := .armed, verdictFixed := true, firePosition := some fire } := ⟨_, rfl⟩
    have hsame : ∀ x, SameTravel x (g x) := fun x => by
      rw [hg]
      exact ⟨rfl, rfl, rfl, rfl, rfl, rfl, rfl, nofun⟩
    have hupdate := updateRecord_of_inTable (f := g) hrefs hin
    dsimp only
    rw [← hg]
    split
    · obtain ⟨f, hf, heq⟩ := takeFire_own (s := updateRecord r.ref g s) k
        ((sameRefs_updateRecord r.ref fun x => (hsame x).ref).refsHeldOnce hrefs)
        (by rw [inTable_updateRecord_same fun x => (hsame x).ref, hr]; rfl)
      refine ⟨fun x => f (g x), fun x => (hsame x).trans (hf _), ?_⟩
      obtain ⟨w, hw⟩ : ∃ w, w = takeFire k r.ref (updateRecord r.ref g s) := ⟨_, rfl⟩
      rw [← hw] at heq ⊢
      rw [heq, updateRecord_table, updateIn_updateIn _ _ _ _ fun x => (hsame x).ref, hupdate]
    · exact ⟨g, hsame, by rw [hupdate]⟩

theorem settleArming_own (hrefs : RefsHeldOnce s) (hr : inTable s ref = some r) :
    ∃ f, (∀ x, SameTravel x (f x)) ∧ settleArming ref s = { s with
      track := { s.track with table := updateIn s.track.table ref f }
      resolution := (settleArming ref s).resolution
      supervision := (settleArming ref s).supervision
      outlets := (settleArming ref s).outlets } := by
  cases hk : armingReached s r with
  | none =>
    have hnone : settleArming ref s = s := settleArming_of_none fun x hx => by
      rw [hr] at hx
      cases hx
      exact hk
    refine ⟨fun x => x, .refl, ?_⟩
    rw [hnone, updateIn_self]
  | some k =>
    obtain rfl : r.ref = ref := findIn_ref hr
    rw [settleArming_of_some hr hk]
    exact takeArming_own k hrefs hr

theorem settleArming_of_exiting (hr : inTable s ref = some r) (hstate : r.state = .exiting) :
    settleArming ref s = s := by
  refine settleArming_of_none fun x hx => ?_
  rw [hr] at hx
  cases hx
  refine Option.eq_none_iff_forall_not_mem.mpr fun k hk => ?_
  obtain ⟨-, honBelt, -⟩ := armingReached_eq_some_iff.mp hk
  rw [hstate] at honBelt
  cases honBelt

/-- A read window that is to be closed at once changes its record, and at most the requests. -/
theorem settleWindow_own (hrefs : RefsHeldOnce s) (hr : inTable s ref = some r) :
    ∃ f, (∀ x, SameTravel x (f x) ∧ (f x).state = x.state) ∧ settleWindow ref s = { s with
      track := { s.track with table := updateIn s.track.table ref f }
      resolution := (settleWindow ref s).resolution }
    ∧ (settleWindow ref s).resolution.exceptions = s.resolution.exceptions := by
  obtain rfl : r.ref = ref := findIn_ref hr
  unfold settleWindow
  rw [hr]
  dsimp only
  split
  · exact ⟨closedUnread, fun _ => ⟨⟨rfl, rfl, rfl, rfl, rfl, rfl, rfl, id⟩, rfl⟩, closeWindow_eq hrefs hr,
      (keepsRequests_closeWindow r s).exceptions⟩
  · exact ⟨fun x => x, fun x => ⟨.refl x, rfl⟩, by rw [updateIn_self], rfl⟩

/-! ## The measurement -/

/-- A record as its trailing edge leaves it (R27, R28). -/
def measuredAt (trail : Position) (n : Nat) (differs : Bool) (x : Record) : Record :=
  { x with
    trail := some trail, length := some n, measuredHere := true
    lengthDoubt := x.lengthDoubt || differs
    stray := if differs = true ∧ x.lengthDoubt = true ∧ x.stray = none then some .doubt else x.stray }

theorem measure_eq {trail lead : Position} {n : Nat} {d : Bool} (hrefs : RefsHeldOnce s) (hr : inTable s ref = some r)
    (hlead : r.lead = some lead) (hn : n = measuredLength lead trail) (hd : d = disagrees s r n) :
    measure ref trail s = { s with
      track := { s.track with table := updateIn s.track.table ref (measuredAt trail n d) }
      resolution := (measure ref trail s).resolution }
    ∧ (measure ref trail s).resolution.exceptions = s.resolution.exceptions := by
  obtain ⟨g, hg⟩ : ∃ g : Record → Record, g = fun x =>
    { x with
      trail := some trail, length := some n, measuredHere := true
      lengthDoubt := x.lengthDoubt || d } := ⟨_, rfl⟩
  have hgref : ∀ x, (g x).ref = x.ref := fun x => by rw [hg]
  have hmeasure : measure ref trail s = if (d && r.lengthDoubt) = true
      then markStray .doubt ref (updateRecord ref g s) else updateRecord ref g s := by
    rw [measure, hr, hg, hd, hn]
    simp only [hlead, Option.getD_some]
  have hone : ∀ x ∈ s.track.table, x.ref = ref → x = r := fun x hx hxr =>
    eq_of_heldRecord hrefs (heldRecord_of_inTable hr) (mem_table_held hx) hxr
  by_cases hdoubt : (d && r.lengthDoubt) = true
  · rw [hmeasure, if_pos hdoubt]
    rw [Bool.and_eq_true] at hdoubt
    have hmark := markStray_updateRecord_inTable (cause := .doubt) hgref hrefs hr
    have hfun := updateIn_congr (l := s.track.table) (ref := ref)
      (f := fun x => marked .doubt (g x)) (g := measuredAt trail n d) fun x hx hxr => by
        rw [hone x hx hxr, hg]
        simp [measuredAt, marked, hdoubt]
    rw [hfun] at hmark
    exact ⟨hmark, ((keepsRequests_updateRecord ref hgref s).trans
      (keepsRequests_markStray _ _ _)).exceptions⟩
  · rw [hmeasure, if_neg hdoubt]
    rw [Bool.and_eq_true] at hdoubt
    have hfun := updateIn_congr (l := s.track.table) (ref := ref)
      (f := g) (g := measuredAt trail n d) fun x hx hxr => by
        rw [hone x hx hxr, hg, measuredAt, if_neg fun h => hdoubt ⟨h.1, h.2.1⟩]
    rw [updateRecord_of_inTable hrefs (by rw [hr]; rfl), hfun]
    exact ⟨rfl, rfl⟩

theorem measuredLength_of_forward {lead trail : Position} (h : 0 ≤ dist lead trail) :
    measuredLength lead trail = min 65535 (dist lead trail).toNat := by
  rw [measuredLength, if_neg (by omega)]

theorem disagrees_iff {n : Nat} : disagrees s r n = true ↔ ∃ old, r.length = some old
    ∧ r.measuredHere = false ∧ s.start.image.tolerance * old < ((old : Int) - n).natAbs * 100 := by
  unfold disagrees
  cases r.length with
  | none => simp
  | some old =>
    have habs : ((old : Int) - n).natAbs = (old - n) + (n - old) := by omega
    simp only [lengthsDisagree, image_def, ← habs, Bool.and_eq_true, Bool.not_eq_true',
      decide_eq_true_eq, Option.some.injEq, exists_eq_left']

end

end Sys2Proof.Machine

/-! # What a trailing edge leaves (R27, R28) -/

namespace Sys2Proof.Machine

section
variable {s t u : State} {ref : BagRef} {r : Record}

theorem windowCloseReached_of_near {p : Position} {m : Nat} (htrail : r.trail = some p)
    (hp : p = behind s.position.counter m) (hlimit : s.start.image.readerFitted = true →
      m < s.start.image.readerDistance + s.start.image.readerLatency
        ∧ s.start.image.readerDistance + s.start.image.readerLatency ≤ 131070) :
    windowCloseReached s r = false := by
  unfold windowCloseReached
  rw [htrail]
  cases hfitted : s.start.image.readerFitted with
  | false => simp [image_def, hfitted]
  | true =>
    obtain ⟨hm, hsum⟩ := hlimit hfitted
    simp only [image_def, hp, Bool.and_eq_false_iff]
    refine .inr ?_
    rw [reached_ahead_behind (by omega) hsum]
    exact decide_eq_false (by omega)

theorem beforeExit_of_update {w : State} {f : Record → Record} {o : Option BagRef}
    (hf : ∀ x, (f x).ref = x.ref) (hrefs : RefsHeldOnce s)
    (hw : w = { s with
      track := { s.track with table := updateIn s.track.table ref f, openMerge := o }
      resolution := w.resolution })
    (hexc : w.resolution.exceptions = s.resolution.exceptions) : BeforeExit ref s w := by
  obtain ⟨v, hv⟩ : ∃ v, v = w.resolution := ⟨_, rfl⟩
  rw [← hv] at hw hexc
  rw [hw]
  have hsame : SameRefs s { s with
      track := { s.track with table := updateIn s.track.table ref f, openMerge := o }
      resolution := v } := ⟨updateIn_map_ref _ _ _ hf, rfl, rfl⟩
  refine ⟨hsame.refsHeldOnce hrefs, without_updateIn _ _ hf, rfl, rfl, rfl, rfl, fun _ _ => rfl, hexc,
    fun k => ?_, rfl, rfl⟩
  rw [leave_outlet, leave_outlet]

theorem exec_entryEyeTrailingEdge (hrun : s.start.node = .run) (hclear : s.start.clearHeld = false)
    (hopen : s.track.openEntry = some ref) : exec .entryEyeTrailingEdge s
      = .next (arbitrate (decidePermit (settleExit ref (settleWindow ref
        ((measure ref s.position.counter s).mapTrack fun u => { u with openEntry := none }))))) := by
  show execEntryEyeTrailingEdge s = _
  simp only [execEntryEyeTrailingEdge, hopen, eyesFollowed_iff.mpr ⟨hrun, hclear⟩, if_true]

theorem exec_mergeEyeTrailingEdge (hrun : s.start.node = .run) (hclear : s.start.clearHeld = false)
    (hind : s.start.image.induction = true) (hopen : s.track.openMerge = some ref) :
    exec .mergeEyeTrailingEdge s
      = .next (arbitrate (decidePermit (settleExit ref (settleArming ref (settleWindow ref
        ((measure ref (behind s.position.counter s.start.image.mergeDistance) s).mapTrack fun u =>
          { u with openMerge := none })))))) := by
  show execMergeEyeTrailingEdge s = _
  simp only [execMergeEyeTrailingEdge, hopen, eyesFollowed_iff.mpr ⟨hrun, hclear⟩, image_def, hind,
    and_self, if_true]

/-- The entry eye's trailing edge, with neither the window's close nor the exit reached. -/
theorem entryTrailing_spec {lead : Position} {n : Nat} {d : Bool} (hrefs : RefsHeldOnce s)
    (hr : inTable s ref = some r) (hlead : r.lead = some lead)
    (hn : n = measuredLength lead s.position.counter) (hd : d = disagrees s r n)
    (hsegment : 1 ≤ s.start.image.segmentLength) (hsegment' : s.start.image.segmentLength ≤ 65535)
    (hreader : s.start.image.readerFitted = true → 1 ≤ s.start.image.readerDistance
      ∧ s.start.image.readerDistance ≤ 65535 ∧ s.start.image.readerLatency ≤ 65535) :
    ∃ v, settleExit ref (settleWindow ref
        ((measure ref s.position.counter s).mapTrack fun u => { u with openEntry := none }))
      = { s with
        track := { s.track with
          table := updateIn s.track.table ref (measuredAt s.position.counter n d)
          openEntry := none }
        resolution := v } := by
  obtain ⟨heq, -⟩ := measure_eq hrefs hr hlead hn hd
  refine ⟨(measure ref s.position.counter s).resolution, ?_⟩
  obtain ⟨w, hw⟩ : ∃ w, w = (measure ref s.position.counter s).mapTrack fun u =>
      { u with openEntry := none } := ⟨_, rfl⟩
  obtain ⟨v, hv⟩ : ∃ v, v = (measure ref s.position.counter s).resolution := ⟨_, rfl⟩
  rw [← hv] at heq ⊢
  rw [← hw]
  rw [heq] at hw
  have hin : inTable w ref = some (measuredAt s.position.counter n d r) :=
    (inTable_of_updateIn (by intro _; rfl) (congrArg (·.track.table) hw) hr).1
  have hposition : w.position = s.position := congrArg (·.position) hw
  have hstart : w.start = s.start := congrArg (·.start) hw
  have hwindow : windowCloseReached w (measuredAt s.position.counter n d r) = false := by
    refine windowCloseReached_of_near (m := 0) rfl ?_ fun hfitted => ?_
    · rw [behind_zero, hposition]
    · rw [hstart] at hfitted ⊢
      have := hreader hfitted
      omega
  have hexit : exitReached w (measuredAt s.position.counter n d r) = false := by
    rw [← Bool.not_eq_true, exitReached_iff]
    rintro ⟨-, p, hp, hreached⟩
    cases hp
    rw [hw] at hreached
    exact Bool.false_ne_true ((not_reached_ahead (s := s) hsegment (by omega)).symm.trans hreached)
  have hstands : settleWindow ref w = w := by
    unfold settleWindow
    rw [hin]
    exact if_neg fun h => Bool.false_ne_true (hwindow.symm.trans h.2)
  rw [hstands, settleExit_of_not_reached hin hexit, hw]
  rfl

/-- The merge eye's trailing edge up to the exit: its record has its trail position and its length, and
the others stand. -/
theorem mergeTrailing_spec {lead trail : Position} (hrefs : RefsHeldOnce s)
    (hr : inTable s ref = some r) (hlead : r.lead = some lead) :
    ∃ w f, (∀ x, (f x).ref = x.ref) ∧ (∀ x, (f x).state = x.state)
      ∧ SameTravel (measuredAt trail (measuredLength lead trail)
        (disagrees s r (measuredLength lead trail)) r) (f r)
      ∧ settleWindow ref ((measure ref trail s).mapTrack fun u => { u with openMerge := none }) = w
      ∧ w = { s with
        track := { s.track with table := updateIn s.track.table ref f, openMerge := none }
        resolution := w.resolution }
      ∧ w.resolution.exceptions = s.resolution.exceptions := by
  obtain ⟨n, hn⟩ : ∃ n, n = measuredLength lead trail := ⟨_, rfl⟩
  obtain ⟨d, hd⟩ : ∃ d, d = disagrees s r n := ⟨_, rfl⟩
  obtain ⟨heq, hexc⟩ := measure_eq hrefs hr hlead hn hd
  obtain ⟨m, hm⟩ : ∃ m, m = (measure ref trail s).mapTrack fun u => { u with openMerge := none } :=
    ⟨_, rfl⟩
  have hmexc : m.resolution.exceptions = s.resolution.exceptions := by rw [hm]; exact hexc
  obtain ⟨v, hv⟩ : ∃ v, v = (measure ref trail s).resolution := ⟨_, rfl⟩
  have hmrefs : RefsHeldOnce m := by
    refine SameRefs.refsHeldOnce ⟨?_, ?_, ?_⟩ hrefs <;> rw [hm, heq]
    · exact updateIn_map_ref _ _ _ (by intro _; rfl)
    · rfl
    · rfl
  rw [← hn, ← hd, ← hm]
  rw [← hv] at heq
  rw [heq] at hm
  have hin : inTable m ref = some (measuredAt trail n d r) :=
    (inTable_of_updateIn (by intro _; rfl) (congrArg (·.track.table) hm) hr).1
  obtain ⟨f, hf, hwindow, hwexc⟩ := settleWindow_own hmrefs hin
  obtain ⟨w, hw⟩ : ∃ w, w = settleWindow ref m := ⟨_, rfl⟩
  rw [← hw] at hwindow hwexc ⊢
  refine ⟨w, fun x => f (measuredAt trail n d x), fun x => (hf _).1.ref, fun x => (hf _).2, (hf _).1,
    rfl, ?_, hwexc.trans hmexc⟩
  obtain ⟨z, hz⟩ : ∃ z, z = w.resolution := ⟨_, rfl⟩
  rw [← hz] at hwindow ⊢
  rw [hwindow, hm]
  refine congrArg (fun l => State.mk _ ⟨l, _, _, _, _, _⟩ _ _ _ _ _ _ _ _) ?_
  exact updateIn_updateIn _ _ _ _ (by intro _; rfl)

/-- Settles O23: the two trailing edges. -/
theorem trailingEdgesMeasure : Obligations.TrailingEdgesMeasure := by
  refine ⟨?_, ?_⟩
  · intro s ref r lead n hb hrun hclear hopen hr hlead hforward hn hsegment hsegment' hreader
    obtain ⟨-, -, hrefs⟩ := hb
    obtain ⟨d, hd⟩ : ∃ d, d = disagrees s r n := ⟨_, rfl⟩
    rw [← measuredLength_of_forward hforward] at hn
    obtain ⟨v, hv⟩ := entryTrailing_spec hrefs hr hlead hn hd hsegment hsegment' hreader
    obtain ⟨w, hw⟩ : ∃ w, w = settleExit ref (settleWindow ref
      ((measure ref s.position.counter s).mapTrack fun u => { u with openEntry := none })) := ⟨_, rfl⟩
    have hexec := exec_entryEyeTrailingEdge hrun hclear hopen
    rw [← hw] at hexec hv
    have htrack : (arbitrate (decidePermit w)).track = w.track := by simp [decidePermit]
    obtain ⟨hsame, hothers⟩ := inTable_of_updateIn (t := arbitrate (decidePermit w))
      (f := measuredAt s.position.counter n d) (by intro _; rfl) (by rw [htrack, hv]) hr
    refine ⟨_, _, hexec, ?_, hsame, hothers, rfl, fun old hold hmeasured hdiffers => ?_, fun hagrees => ?_,
      ?_, ?_, ?_, ?_, ?_⟩
    · rw [htrack, hv]
    · have hdtrue : d = true := hd.trans (disagrees_iff.mpr ⟨old, hold, hmeasured, hdiffers⟩)
      simp [measuredAt, hdtrue]
    · have hdfalse : d = false := by
        rw [hd, ← Bool.not_eq_true, disagrees_iff]
        rintro ⟨old, hold, hmeasured, hdiffers⟩
        rcases hagrees with h | h | ⟨old', hold', hwithin⟩
        · rw [h] at hold
          cases hold
        · rw [h] at hmeasured
          cases hmeasured
        · rw [hold] at hold'
          cases hold'
          omega
      simp [measuredAt, hdfalse]
    · simp [decidePermit, hv]
    · simp [decidePermit, hv]
    · simp [decidePermit, hv]
    · simp [decidePermit, hv]
    · simp [decidePermit, hv]
  · rintro s ref r lead _ m hb hrun hclear hind hopen hr hlead rfl hm hsegment rfl
    obtain ⟨-, -, hrefs⟩ := hb
    have hexec := exec_mergeEyeTrailingEdge hrun hclear hind hopen
    obtain ⟨w, f, hfref, hfstate, htravel, hsettled, hw, hexc⟩ :=
      mergeTrailing_spec (trail := behind s.position.counter s.start.image.mergeDistance) hrefs hr hlead
    rw [hsettled] at hexec
    have hin : inTable w ref = some (f r) :=
      (inTable_of_updateIn hfref (congrArg (·.track.table) hw) hr).1
    have hbefore : BeforeExit ref s w := beforeExit_of_update hfref hrefs hw hexc
    have hothers : ∀ other, other ≠ ref → inTable w other = inTable s other :=
      (inTable_of_updateIn hfref (congrArg (·.track.table) hw) hr).2
    refine ⟨fun hstays hforward => ?_, fun hstate hpast => ?_⟩
    · obtain ⟨g, hg, hown⟩ := settleArming_own hbefore.refs hin
      obtain ⟨z, hz⟩ : ∃ z, z = settleArming ref w := ⟨_, rfl⟩
      rw [← hz] at hexec hown
      obtain ⟨hzin, hzothers⟩ :=
        inTable_of_updateIn (fun x => (hg x).ref) (congrArg (·.track.table) hown) hin
      have hkept := htravel.trans (hg (f r))
      have hzposition : z.position = s.position := by rw [hown, hw]
      have hzstart : z.start = s.start := by rw [hown, hw]
      have hexit : exitReached z (g (f r)) = false := by
        rw [← Bool.not_eq_true, exitReached_iff]
        rintro ⟨hstate, p, hp, hreached⟩
        rw [hkept.trail] at hp
        cases hp
        rw [reached, hzposition, hzstart, dist_ahead_behind _ (by omega) (by omega)] at hreached
        have hlong := of_decide_eq_true hreached
        exact hstays.elim (fun h => h (hkept.exiting hstate)) fun h => by omega
      rw [settleExit_of_not_reached hzin hexit] at hexec
      have htrack : (arbitrate (decidePermit z)).track = z.track := by simp [decidePermit]
      refine ⟨g (f r), _, hexec, ?_, ?_, ?_, ?_, hkept.measured, hkept.lead, hkept.tag, hkept.laps,
        fun hstate => ?_, fun other hother => ?_, ?_, ?_, ?_,
        permitFollows_arbitrate_decidePermit z, ?_⟩
      · rw [htrack, hown, hw]
      · rw [inTable_congr (congrArg _ htrack), hzin]
      · exact hkept.trail
      · rw [hkept.length, ← measuredLength_of_forward hforward]
        rfl
      · have hstands : z = w := hz.trans (settleArming_of_exiting hin ((hfstate r).trans hstate))
        rw [hstands, hin] at hzin
        rw [← Option.some.inj hzin, hfstate, hstate]
      · rw [inTable_congr (congrArg _ htrack), hzothers other hother, hothers other hother]
      · simp [decidePermit, hzposition]
      · simp [decidePermit, hzstart]
      · rw [htrack, hown, hw]
      · have hind : z.induction = s.induction := by rw [hown, hw]
        simp [decidePermit, hind]
    · have hstatew : (f r).state = .exiting := (hfstate r).trans hstate
      obtain rfl : r.ref = ref := findIn_ref hr
      have hexit : exitReached w (f r) = true := by
        refine exitReached_iff.mpr ⟨hstatew, _, htravel.trail, ?_⟩
        rw [reached, hbefore.position, hbefore.start, dist_ahead_behind _ (by omega) (by omega)]
        exact decide_eq_true (by omega)
      rw [settleArming_of_exiting hin hstatew, settleExit_of_reached hin hexit] at hexec
      refine ⟨_, hexec, leavesAbandoned_of hrefs hr hbefore, ?_⟩
      have htrack : (arbitrate (decidePermit (takeExit r.ref w))).track = (leaveTable r.ref w).track := by
        simp [decidePermit, takeExit]
      obtain ⟨-, hleft, -⟩ := leaveTable_bags r.ref hbefore.refs
      rw [htrack, hleft, hw]
      rfl

end

end Sys2Proof.Machine

/-! # Anonymous and untracked arrivals (R25, R26, R154) -/

namespace Sys2Proof.Machine

section
variable {s t u : State} {ref : BagRef} {r : Record}

/-! ## The crowd (R158, R159) -/

/-- The notice of a node that becomes crowded. -/
def crowdNotices (s : State) : List OutFrame :=
  if s.supervision.crowded = false ∧ s.start.image.highWater ≤ occupancy s
    then [⟨31, .crowd, [1, byteOf (occupancy s)]⟩] else []

theorem occupancyRose_line (s : State) : (occupancyRose s).line = { s.line with
    notices := (s.line.notices ++ crowdNotices s).take (max 8 s.line.notices.length) } := by
  unfold occupancyRose crowdNotices
  by_cases h : s.supervision.crowded = false ∧ s.start.image.highWater ≤ occupancy s
  · rw [if_pos h]
    exact (congrArg State.line (if_pos h)).trans (queueNotice_line _ _)
  · rw [if_neg h, List.append_nil, List.take_of_length_le (by omega)]
    exact congrArg State.line (if_neg h)

theorem occupancyRose_notices (h : s.line.notices.length < 8) :
    (occupancyRose s).line.notices = s.line.notices ++ crowdNotices s := by
  rw [occupancyRose_line]
  refine List.take_of_length_le ?_
  have hlen : (crowdNotices s).length ≤ 1 := by
    unfold crowdNotices
    split <;> simp
  rw [List.length_append]
  omega

theorem occupancyRose_counter {c : Counter} (h : c ≠ .droppedNotices) (s : State) :
    (occupancyRose s).counter c = s.counter c := by
  unfold occupancyRose
  split
  · exact queueNotice_counter h _ _
  · rfl

theorem occupancyRose_crowded (s : State) : (occupancyRose s).supervision.crowded = true
    ↔ s.supervision.crowded = true ∨ s.start.image.highWater ≤ occupancy s := by
  by_cases h : s.supervision.crowded = false ∧ s.start.image.highWater ≤ occupancy s
  · have heq : occupancyRose s = setCrowded true s := if_pos h
    rw [heq, setCrowded, queueNotice_crowded]
    exact ⟨fun _ => .inr h.2, fun _ => rfl⟩
  · have heq : occupancyRose s = s := if_neg h
    rw [heq]
    refine ⟨.inl, fun hc => hc.elim id fun hhigh => ?_⟩
    by_contra hcalm
    exact h ⟨Bool.not_eq_true _ |>.mp hcalm, hhigh⟩

theorem occupancyRose_codes (s : State) : (occupancyRose s).induction.codes = s.induction.codes := by
  unfold occupancyRose
  split
  · simp [setCrowded]
  · rfl

/-! ## The end of an event of the belt -/

/-- What the permit and the arbiter leave at the end of an event. -/
theorem eventEnd_rest (s : State) :
    (arbitrate (decidePermit s)).position = s.position
      ∧ (arbitrate (decidePermit s)).track = s.track
      ∧ (arbitrate (decidePermit s)).resolution = s.resolution
      ∧ (arbitrate (decidePermit s)).outlets = s.outlets
      ∧ (arbitrate (decidePermit s)).start = s.start
      ∧ (arbitrate (decidePermit s)).induction.codes = s.induction.codes
      ∧ (arbitrate (decidePermit s)).line.notices = s.line.notices := by
  and_intros <;> simp [decidePermit]

theorem eventEnd_supervision (s : State) :
    (∀ c, (arbitrate (decidePermit s)).counter c = s.counter c)
      ∧ (arbitrate (decidePermit s)).supervision.flags = s.supervision.flags
      ∧ (arbitrate (decidePermit s)).supervision.crowded = s.supervision.crowded := by
  and_intros
  · intro c
    rw [State.counter, (arbitrate_supervision_rest _).1]
    rfl
  · simp [decidePermit]
  · simp [decidePermit]

theorem eventEnd_handoff (s : State) :
    (arbitrate (decidePermit s)).handoff.expected = s.handoff.expected
      ∧ (arbitrate (decidePermit s)).handoff.pendingOffers = s.handoff.pendingOffers
      ∧ ((arbitrate (decidePermit s)).handoff.outbound.map fun o => (o.ref, o.attempts))
        = s.handoff.outbound.map fun o => (o.ref, o.attempts) := by
  and_intros
  · simp [decidePermit]
  · simp [decidePermit]
  · rw [arbitrate_outbound]
    rfl

/-! ## A new record (R16, R22) -/

theorem findIn_tail {l : List Record} (h : findIn l r.ref = none) : findIn (l ++ [r]) r.ref = some r := by
  rw [findIn_append, h, Option.none_or, findIn, List.find?_cons_of_pos (by simp)]

/-- An offer point that lies ahead is not taken. -/
theorem settleOfferPoint_of_ahead (hr : inTable s ref = some r)
    (hlead : r.lead = some s.position.counter) (hlow : 1 ≤ s.start.image.offerDistance)
    (hhigh : s.start.image.offerDistance ≤ 65535) : settleOfferPoint ref s = s := by
  rw [settleOfferPoint, hr]
  refine if_neg ?_
  unfold offerPointReached
  rw [hlead]
  simp only [image_def, not_reached_ahead hlow (by omega), Bool.and_false]
  exact Bool.false_ne_true

/-- The record of an anonymous bag (R25). -/
def anonymousBag (s : State) : Record :=
  newRecord (drawnRef s) s.position.counter none (some .anon)

/-- An anonymous record placed and counted, before its request. -/
def anonymousPlaced (s : State) : State :=
  { s with
    track := { s.track with
      table := s.track.table ++ [anonymousBag s]
      bagSeq := nextSeq (drawnRef s).seq
      openEntry := some (drawnRef s) }
    supervision := raised .anonymous s.supervision }

theorem anonymousArrival_eq (s : State) : anonymousArrival s = settleOfferPoint (drawnRef s)
    (raiseRequest (drawnRef s) (occupancyRose (anonymousPlaced s))) := by
  rw [anonymousArrival, bump_eq]
  rfl

theorem exec_entryEyeArrival (hrun : s.start.node = .run) (hclear : s.start.clearHeld = false) :
    exec .entryEyeArrival s = .next (arbitrate (decidePermit (entryArrival s))) := by
  show execEntryEyeArrival s = _
  simp only [execEntryEyeArrival, eyesFollowed_iff.mpr ⟨hrun, hclear⟩, if_true]

theorem entryArrival_of_nobody (hexp : s.handoff.expected = []) (hpend : s.handoff.pendingOffers = [])
    (hroom : s.track.table.length < 48) : entryArrival s = anonymousArrival s := by
  have hfull : ¬ decide (Config.tableCapacity ≤ occupancy s) = true := fun h =>
    absurd (of_decide_eq_true h) (not_le.mpr hroom)
  simp only [entryArrival, hexp, hpend, if_neg hfull]

theorem not_inTable_of_free (h : heldRecord s ref = none) : findIn s.track.table ref = none :=
  (heldRecord_eq_none.mp h).1

/-- Settles O20: an arrival that no record waits for. -/
theorem anonymousArrivalMakesRecord : Obligations.AnonymousArrivalMakesRecord := by
  intro s hb hrun hclear hexp hpend hroom hlow hhigh
  obtain ⟨hfree, hfirst⟩ := drawnRef_spec hb
  have hexec := exec_entryEyeArrival hrun hclear
  rw [entryArrival_of_nobody hexp hpend hroom, anonymousArrival_eq] at hexec
  obtain ⟨p, hp⟩ : ∃ p, p = anonymousPlaced s := ⟨_, rfl⟩
  obtain ⟨w, hw⟩ : ∃ w, w = occupancyRose p := ⟨_, rfl⟩
  obtain ⟨z, hz⟩ : ∃ z, z = raiseRequest (drawnRef s) w := ⟨_, rfl⟩
  have hplen : occupancy p = s.track.table.length + 1 := by rw [hp]; exact List.length_append
  obtain ⟨hposition, htrack, hres, houtlets, hhandoff, hstart, -⟩ := occupancyRose_rest (s := p)
  rw [← hw] at hposition htrack hres houtlets hhandoff hstart
  have hin : inTable w (drawnRef s) = some (anonymousBag s) := by
    rw [inTable, htrack, hp]
    exact findIn_tail (not_inTable_of_free hfree)
  have hwexp : inExpected w (drawnRef s) = none := by
    rw [inExpected, hhandoff, hp]
    exact (heldRecord_eq_none.mp hfree).2.2
  have hzeq : z = { w with resolution := z.resolution } := by
    rw [hz]
    exact raiseRequest_eq_resolution hwexp
  have hzin : inTable z (drawnRef s) = some (anonymousBag s) := by
    rw [hzeq]
    exact hin
  have hzexc : z.resolution.exceptions = s.resolution.exceptions := by
    rw [hz, (keepsRequests_raiseRequest _ _).exceptions, hres, hp]
    rfl
  have hrequested : Requested s z (drawnRef s) := by
    have h := requested_raiseRequest hwexp (by rw [heldRecord_of_inTable hin]; rfl)
    rw [← hz] at h
    refine h.congr ?_
    rw [hres, hp]
    rfl
  have hsettled : settleOfferPoint (drawnRef s) z = z := by
    refine settleOfferPoint_of_ahead hzin ?_ ?_ ?_ <;> rw [hzeq]
    · show some s.position.counter = some w.position.counter
      rw [hposition, hp]
      rfl
    · show 1 ≤ w.start.image.offerDistance
      rw [hstart, hp]
      exact hlow
    · show w.start.image.offerDistance ≤ 65535
      rw [hstart, hp]
      exact hhigh
  rw [← hp, ← hw, ← hz, hsettled] at hexec
  have hztrack : z.track = p.track := (congrArg (·.track) hzeq).trans htrack
  have hzhandoff : z.handoff = p.handoff := (congrArg (·.handoff) hzeq).trans hhandoff
  have hzline : z.line = w.line := congrArg (·.line) hzeq
  have hzsupervision : z.supervision = w.supervision := congrArg (·.supervision) hzeq
  have hpcrowded : p.supervision.crowded = s.supervision.crowded := congrArg (·.supervision.crowded) hp
  have hpstart : p.start = s.start := congrArg (·.start) hp
  have hpnotices : p.line.notices = s.line.notices := congrArg (·.line.notices) hp
  obtain ⟨htPosition, htTrack, htRes, htOutlets, htStart, htCodes, htNotices⟩ := eventEnd_rest z
  obtain ⟨htCounter, -, htCrowded⟩ := eventEnd_supervision z
  obtain ⟨htExp, htPend, -⟩ := eventEnd_handoff z
  refine ⟨anonymousBag s, _, hexec, rfl, hfree, hfirst, ?_, ?_, ?_, ?_, rfl, rfl, rfl, rfl, rfl, rfl, rfl,
    rfl, rfl, rfl, rfl, rfl, ?_, ?_, ?_, fun hspace => ?_, permitFollows_arbitrate_decidePermit z, ?_,
    ?_, ?_, ?_, ?_, ?_, ?_⟩
  · rw [htTrack, hztrack, hp]
    rfl
  · rw [htTrack, hztrack, hp]
    rfl
  · rw [htTrack, hztrack, hp]
    rfl
  · rw [htTrack, hztrack, hp]
    rfl
  · rw [htCounter, State.counter, hzsupervision, hw]
    refine (occupancyRose_counter (by decide) p).trans ?_
    rw [hp]
    exact raised_get_same _ _
  · rwa [Requested, htRes]
  · rw [htCrowded, hzsupervision, hw, occupancyRose_crowded, hpcrowded, hplen, hpstart]
  · rw [htNotices, hzline, hw, occupancyRose_notices (by rwa [hpnotices]), hpnotices, crowdNotices,
      hpcrowded, hplen, hpstart]
  · rw [htCodes, hzeq, hw, hp]
    exact occupancyRose_codes _
  · rw [htPosition, hzeq, hposition, hp]
    rfl
  · rw [htOutlets, hzeq, houtlets, hp]
    rfl
  · rw [htStart, hzeq, hstart, hp]
    rfl
  · rw [htExp, hzhandoff, hp]
    exact hexp
  · rw [htPend, hzhandoff, hp]
    exact hpend
  · rw [htRes]
    exact hzexc

end

end Sys2Proof.Machine

/-! # Heads whose deadline is reached (R144), and arrivals into a full track table (R26, R154) -/

namespace Sys2Proof.Machine

section
variable {s t u : State} {ref : BagRef} {r : Record}

/-! ## Heads that leave as MISSING behind another event -/

/-- Records of the expected list, and they alone, have left: what stays of the node. -/
structure HeadsLeave (s t : State) : Prop where
  refs : RefsHeldOnce t
  table : t.track.table = s.track.table
  pending : t.handoff.pendingOffers = s.handoff.pendingOffers
  absent : ∀ ref, inExpected s ref = none → inExpected t ref = none
  entry : ∀ o, s.track.openEntry = o → (∀ ref, o = some ref → inExpected s ref = none) →
    t.track.openEntry = o
  bagSeq : t.track.bagSeq = s.track.bagSeq
  requests : ∀ ref, inExpected s ref = none → ref ∈ s.resolution.requests → ref ∈ t.resolution.requests
  service : ∀ v ref, s.resolution.service = some v → v.owner = some ref → inExpected s ref = none →
    t.resolution.service = some v
  exceptions : t.resolution.exceptions = s.resolution.exceptions
  counters : ∀ c, c ≠ .missing → c ≠ .droppedNotices → t.counter c = s.counter c
  outlets : ∀ k, { t.outlets.get k with diverting := [] } = { s.outlets.get k with diverting := [] }
  codes : t.induction.codes = s.induction.codes
  position : t.position = s.position
  start : t.start = s.start

theorem HeadsLeave.refl (hrefs : RefsHeldOnce s) : HeadsLeave s s :=
  ⟨hrefs, rfl, rfl, fun _ => id, fun _ h _ => h, rfl, fun _ _ => id, fun _ _ h _ _ => h, rfl,
    fun _ _ _ => rfl, fun _ => rfl, rfl, rfl, rfl⟩

theorem HeadsLeave.trans (h : HeadsLeave s t) (k : HeadsLeave t u) : HeadsLeave s u where
  refs := k.refs
  table := k.table.trans h.table
  pending := k.pending.trans h.pending
  absent ref hs := k.absent ref (h.absent ref hs)
  entry o ho hs := k.entry o (h.entry o ho hs) fun ref hr => h.absent ref (hs ref hr)
  bagSeq := k.bagSeq.trans h.bagSeq
  requests ref hs hr := k.requests ref (h.absent ref hs) (h.requests ref hs hr)
  service v ref hv ho hs := k.service v ref (h.service v ref hv ho hs) ho (h.absent ref hs)
  exceptions := k.exceptions.trans h.exceptions
  counters c hm hd := (k.counters c hm hd).trans (h.counters c hm hd)
  outlets j := (k.outlets j).trans (h.outlets j)
  codes := k.codes.trans h.codes
  position := k.position.trans h.position
  start := k.start.trans h.start

theorem takeMissing_leaves (r : Record) (s : State) :
    (takeMissing r s).position = s.position ∧ (takeMissing r s).track = (leave r.ref s).track
      ∧ (takeMissing r s).resolution = (leave r.ref s).resolution
      ∧ (takeMissing r s).outlets = (leave r.ref s).outlets
      ∧ (takeMissing r s).handoff = (leave r.ref s).handoff
      ∧ (takeMissing r s).induction = s.induction ∧ (takeMissing r s).start = s.start := by
  simp [takeMissing]

theorem takeMissing_counter {c : Counter} (hm : c ≠ .missing) (hd : c ≠ .droppedNotices) (r : Record)
    (s : State) : (takeMissing r s).counter c = s.counter c := by
  rw [takeMissing, queueNotice_counter hd, bump_eq]
  refine (raised_get_other _ hm).trans ?_
  rw [(leave_rest r.ref (s := s)).2.2.1]
  rfl

theorem headsLeave_takeMissing (hrefs : RefsHeldOnce s) (hr : r ∈ s.handoff.expected) :
    HeadsLeave s (takeMissing r s) := by
  have hin : (inExpected s r.ref).isSome = true := findIn_isSome.mpr (List.mem_map_of_mem hr)
  obtain ⟨htable, hpend⟩ := not_elsewhere_of_inExpected hrefs hin
  obtain ⟨hleftPend, hleftExp⟩ := leave_lists r.ref s
  have hother : ∀ ref, inExpected s ref = none → ref ≠ r.ref := fun ref hnone heq => by
    rw [← heq, hnone] at hin
    cases hin
  obtain ⟨hposition, htrack, hres, houtlets, hhandoff, hinduction, hstart⟩ := takeMissing_leaves r s
  constructor
  case refs =>
    refine SameRefs.refsHeldOnce ?_ (refsHeldOnce_leave r.ref hrefs)
    exact sameRefs_of_eq (congrArg _ htrack) hhandoff
  case table =>
    rw [htrack]
    exact leave_table_of_inbound htable
  case pending =>
    rw [hhandoff, hleftPend]
    exact filter_refs_absent hpend
  case absent =>
    intro ref hnone
    rw [inExpected, hhandoff, hleftExp, findIn_filter_other _ (hother ref hnone)]
    exact hnone
  case entry =>
    rintro _ rfl hentry
    rw [htrack, leave_track]
    exact if_neg fun h => hother r.ref (hentry r.ref h) rfl
  case bagSeq => rw [htrack, leave_track]
  case requests =>
    intro ref hnone hwaits
    rw [hres, leave_resolution]
    exact List.mem_filter.mpr ⟨hwaits, decide_eq_true (hother ref hnone)⟩
  case service =>
    intro v ref hv howner hnone
    rw [hres, leave_resolution, hv]
    have hkept : forget r.ref v.owner = v.owner := by
      rw [howner]
      exact if_neg fun h => hother ref hnone (Option.some.inj h)
    rw [Option.map_some, hkept]
  case exceptions => rw [hres, leave_resolution]
  case counters => exact fun c hm hd => takeMissing_counter hm hd r s
  case outlets =>
    intro k
    rw [houtlets, leave_outlet]
  case codes => rw [hinduction]
  case position => exact hposition
  case start => exact hstart

theorem headsLeave_settleDeadlines (n : Nat) (hrefs : RefsHeldOnce s) :
    HeadsLeave s (settleDeadlines n s) := by
  induction n generalizing s with
  | zero => exact .refl hrefs
  | succ n ih =>
    cases hr : deadlineReached s with
    | none =>
      rw [settleDeadlines_of_none _ hr]
      exact .refl hrefs
    | some r =>
      obtain ⟨rest, _, hexp, -⟩ := deadlineReached_eq_some hr
      have hleave := headsLeave_takeMissing hrefs (r := r) (by rw [hexp]; exact List.mem_cons_self)
      rw [settleDeadlines, hr]
      exact hleave.trans (ih hleave.refs)

theorem headsLeave_settleHead (hrefs : RefsHeldOnce s) : HeadsLeave s (settleHead s) :=
  headsLeave_settleDeadlines _ hrefs

theorem HeadsLeave.heldRecord_none (h : HeadsLeave s t) (hnone : heldRecord s ref = none) :
    heldRecord t ref = none := by
  rw [heldRecord_eq_none] at hnone ⊢
  obtain ⟨htable, hpend, hexp⟩ := hnone
  refine ⟨?_, ?_, h.absent ref hexp⟩
  · rwa [inTable_congr h.table]
  · rwa [inPendingOffers, h.pending]

/-! ## An arrival into a full track table -/

/-- The record that an arrival finds: the head of the expected list, else the oldest pending offer. -/
def foundRecord (s : State) : Option Record := s.handoff.expected.head?.or s.handoff.pendingOffers.head?

theorem entryArrival_of_full (hfull : 48 ≤ s.track.table.length) :
    entryArrival s = untrackedArrival (foundRecord s) s := by
  have h : decide (Config.tableCapacity ≤ occupancy s) = true := decide_eq_true hfull
  unfold entryArrival foundRecord
  cases hexp : s.handoff.expected with
  | cons x rest => exact if_pos h
  | nil => cases hpend : s.handoff.pendingOffers with
    | cons x rest => exact if_pos h
    | nil => exact if_pos h

theorem inTable_of_foundRecord (hrefs : RefsHeldOnce s) (h : foundRecord s = some r) :
    inTable s r.ref = none := by
  rw [foundRecord, Option.or_eq_some_iff] at h
  rcases h with hexp | ⟨-, hpend⟩
  · refine (not_elsewhere_of_inExpected hrefs ?_).1
    exact findIn_isSome.mpr (List.mem_map_of_mem (List.mem_of_head? hexp))
  · refine (not_elsewhere_of_inPendingOffers hrefs ?_).1
    exact findIn_isSome.mpr (List.mem_map_of_mem (List.mem_of_head? hpend))

/-- The found record as it leaves. -/
def foundLeaves (s : State) : State :=
  match foundRecord s with
  | some r => leave r.ref s
  | none => s

theorem foundLeaves_of_none (h : foundRecord s = none) : foundLeaves s = s := by
  rw [foundLeaves, h]

theorem foundLeaves_of_some (h : foundRecord s = some r) : foundLeaves s = leave r.ref s := by
  rw [foundLeaves, h]

theorem foundLeaves_spec (hrefs : RefsHeldOnce s) : RefsHeldOnce (foundLeaves s)
    ∧ (foundLeaves s).track.table = s.track.table
    ∧ (foundLeaves s).track.bagSeq = s.track.bagSeq
    ∧ (∀ r, foundRecord s = some r → heldRecord (foundLeaves s) r.ref = none)
    ∧ (foundLeaves s).supervision = s.supervision ∧ (foundLeaves s).induction = s.induction
    ∧ (foundLeaves s).resolution.exceptions = s.resolution.exceptions
    ∧ (foundLeaves s).position = s.position ∧ (foundLeaves s).start = s.start := by
  cases h : foundRecord s with
  | none =>
    rw [foundLeaves_of_none h]
    exact ⟨hrefs, rfl, rfl, fun _ hr => (Option.some_ne_none _ hr.symm).elim, rfl, rfl, rfl, rfl, rfl⟩
  | some r =>
    obtain ⟨hposition, hinduction, hsupervision, hstart, -⟩ := leave_rest r.ref (s := s)
    rw [foundLeaves_of_some h]
    refine ⟨refsHeldOnce_leave r.ref hrefs,
      leave_table_of_inbound (inTable_of_foundRecord hrefs h), ?_, ?_, hsupervision, hinduction, ?_,
      hposition, hstart⟩
    · rw [leave_track]
    · intro x hx
      rw [← Option.some.inj hx]
      exact heldRecord_leave_same r.ref s
    · rw [leave_resolution]

/-- The untracked bag counted, before the next heads leave. -/
def untrackedCounted (s : State) : State :=
  { foundLeaves s with
    track := { (foundLeaves s).track with openEntry := none }
    supervision := raised .untracked (foundLeaves s).supervision }

theorem untrackedArrival_eq (s : State) :
    untrackedArrival (foundRecord s) s = settleHead (untrackedCounted s) := by
  show settleHead (bump .untracked ((foundLeaves s).mapTrack fun u => { u with openEntry := none })) = _
  rw [bump_eq]
  rfl

theorem exec_mergeArrival (coded : Bool) (hrun : s.start.node = .run)
    (hclear : s.start.clearHeld = false) (hind : s.start.image.induction = true) {m : State}
    (hm : m = if decide (Config.tableCapacity ≤ occupancy s) then untrackedMerge coded s
      else mergedArrival coded s) :
    exec (.mergeArrival coded) s = .next (arbitrate (decidePermit
      (if decide (Config.tableCapacity ≤ occupancy s) || !s.induction.permit
        then setForcedMerge m else m))) := by
  show execMergeArrival coded s = _
  simp only [hm, execMergeArrival, eyesFollowed_iff.mpr ⟨hrun, hclear⟩, image_def, hind, and_self,
    if_true]

/-- Settles O22: arrivals into a full track table. -/
theorem fullTableLeavesBagsUntracked : Obligations.FullTableLeavesBagsUntracked := by
  refine ⟨?_, ?_⟩
  · intro s hb hrun hclear hfull
    obtain ⟨-, -, hrefs⟩ := hb
    have hexec := exec_entryEyeArrival hrun hclear
    rw [entryArrival_of_full hfull, untrackedArrival_eq] at hexec
    obtain ⟨hleftRefs, htable, hbagSeq, hgone, hsupervision, hinduction, hexc, hposition, hstart⟩ :=
      foundLeaves_spec hrefs
    have hheads := headsLeave_settleHead (s := untrackedCounted s) hleftRefs
    obtain ⟨w, hw⟩ : ∃ w, w = settleHead (untrackedCounted s) := ⟨_, rfl⟩
    rw [← hw] at hexec hheads
    obtain ⟨htPosition, htTrack, htRes, -, htStart, htCodes, -⟩ := eventEnd_rest w
    obtain ⟨htCounter, -, -⟩ := eventEnd_supervision w
    obtain ⟨htExp, htPend, -⟩ := eventEnd_handoff w
    have hheld : ∀ r, foundRecord s = some r →
        heldRecord (arbitrate (decidePermit w)) r.ref = none := fun r hr => by
      rw [heldRecord_congr (congrArg _ htTrack) htPend htExp]
      exact hheads.heldRecord_none (hgone r hr)
    refine ⟨_, hexec, ?_, ?_, ?_, ?_, ?_, fun r hr => ?_, fun r hnone hr => ?_, ?_, ?_, ?_, ?_⟩
    · rw [htTrack, hheads.table]
      exact htable
    · rw [htTrack, hheads.entry none rfl nofun]
    · rw [htTrack, hheads.bagSeq]
      exact hbagSeq
    · rw [htCounter, hheads.counters _ (by decide) (by decide)]
      refine (raised_get_same _ _).trans ?_
      rw [hsupervision]
      rfl
    · rw [htCounter, hheads.counters _ (by decide) (by decide)]
      refine (raised_get_other _ (by decide)).trans ?_
      rw [hsupervision]
      rfl
    · exact hheld r (by rw [foundRecord, hr, Option.some_or])
    · exact hheld r (by rw [foundRecord, hnone, hr]; rfl)
    · rw [htPosition, hheads.position]
      exact hposition
    · rw [htStart, hheads.start]
      exact hstart
    · rw [htCodes, hheads.codes]
      exact congrArg _ hinduction
    · rw [htRes, hheads.exceptions]
      exact hexc
  · intro s coded hrun hclear hind hfull
    have h : decide (Config.tableCapacity ≤ occupancy s) = true := decide_eq_true hfull
    have hexec := exec_mergeArrival coded hrun hclear hind rfl
    rw [h, if_pos rfl, Bool.true_or, if_pos rfl] at hexec
    have hmerge : untrackedMerge coded s = { s with
        track := { s.track with openMerge := none }
        induction := { s.induction with
          codes := if coded then s.induction.codes.tail else s.induction.codes }
        supervision := raised .untracked s.supervision } := by
      rw [untrackedMerge, bump_eq]
      cases coded <;> rfl
    obtain ⟨w, hw⟩ : ∃ w, w = setForcedMerge (untrackedMerge coded s) := ⟨_, rfl⟩
    rw [← hw] at hexec
    rw [hmerge] at hw
    obtain ⟨htPosition, htTrack, htRes, htOutlets, htStart, htCodes, -⟩ := eventEnd_rest w
    obtain ⟨htCounter, htFlags, -⟩ := eventEnd_supervision w
    obtain ⟨htExp, -, -⟩ := eventEnd_handoff w
    refine ⟨_, hexec, ?_, ?_, ?_, ?_, ?_, ?_, ?_, ?_, ?_⟩
    · rw [htTrack, hw]
      rfl
    · rw [htCounter, hw]
      show (raised .untracked s.supervision).counters.get .untracked = _
      exact raised_get_same _ _
    · rw [htFlags, hw]
      rfl
    · rw [htCodes, hw]
      rfl
    · rw [htRes, hw]
      rfl
    · rw [htPosition, hw]
      rfl
    · rw [htOutlets, hw]
      rfl
    · rw [htStart, hw]
      rfl
    · rw [htExp, hw]
      rfl

end

end Sys2Proof.Machine

/-! # Merges (R23, R152, R153) -/

namespace Sys2Proof.Machine

section
variable {s t u : State} {ref : BagRef} {r e : Record} {l₁ l₂ : List Record}

/-! ## The duplicate check of a record that has joined the table (R34) -/

theorem mem_joined (htable : s.track.table = l₁ ++ e :: l₂) : e ∈ s.track.table := by
  rw [htable]
  exact List.mem_append_right _ List.mem_cons_self

/-- The records beside one that has joined the table bear another bag ref. -/
theorem ref_ne_of_joined {x : Record} (hrefs : RefsHeldOnce s) (htable : s.track.table = l₁ ++ e :: l₂)
    (hx : x ∈ l₁ ++ l₂ ++ s.handoff.expected) : x.ref ≠ e.ref := by
  obtain ⟨hnodup, -, -, -, hexp, -⟩ := refsHeldOnce_iff.mp hrefs
  rcases List.mem_append.mp hx with hx | hx
  · rw [htable, (List.perm_middle.map _).nodup_iff, List.map_cons, List.nodup_cons] at hnodup
    exact fun h => hnodup.1 (h ▸ List.mem_map_of_mem hx)
  · exact (hexp e (mem_joined htable) x hx).symm

theorem duplicateCheck_joined {duplicate : Bool} (hrefs : RefsHeldOnce s)
    (hstates : ∀ x ∈ s.handoff.expected, x.state = .expected) (htable : s.track.table = l₁ ++ e :: l₂)
    (hdup : duplicate = (l₁ ++ l₂ ++ s.handoff.expected).any (twin e.tag)) :
    duplicateCheck e.ref s = { s with
      track := { s.track with
        table := l₁.map (twinMarked e.tag (marked .duplicate))
          ++ (if duplicate then marked .duplicate e else e)
            :: l₂.map (twinMarked e.tag (marked .duplicate)) }
      handoff := { s.handoff with
        expected := s.handoff.expected.map (twinMarked e.tag (markedDue .duplicate)) }
      resolution := (duplicateCheck e.ref s).resolution
      supervision := if duplicate then raised .duplicates s.supervision else s.supervision } := by
  have hmem := mem_joined htable
  have hcheck := duplicateCheck_eq hrefs hstates
    (heldRecord_of_inTable (inTable_of_mem hrefs hmem)) (List.mem_append_left _ hmem)
  have hfound : foundDuplicate s e = duplicate := by
    have hself : duplicateOf e e = false := by simp [duplicateOf]
    have hall : ∀ x ∈ l₁ ++ l₂ ++ s.handoff.expected, duplicateOf e x = twin e.tag x := fun x hx => by
      simp [duplicateOf, ref_ne_of_joined hrefs htable hx]
    rw [hdup, foundDuplicate, htable, Bool.eq_iff_iff]
    simp only [List.any_append, List.any_cons, hself, Bool.false_or]
    rw [← List.any_append, ← List.any_append, ← List.any_append, ← List.any_append, List.any_eq_true,
      List.any_eq_true]
    exact exists_congr fun x => and_congr_right fun hx => by rw [hall x hx]
  have hmarked (mark : Record → Record) {l : List Record}
      (hl : ∀ x ∈ l, x ∈ l₁ ++ l₂ ++ s.handoff.expected) :
      l.map (checked e duplicate mark) = l.map (twinMarked e.tag mark) :=
    List.map_congr_left fun x hx => checked_other (ref_ne_of_joined hrefs htable (hl x hx))
  rw [hfound, htable, List.map_append, List.map_cons, checked_self,
    hmarked _ fun x hx => List.mem_append_left _ (List.mem_append_left _ hx),
    hmarked _ fun x hx => List.mem_append_left _ (List.mem_append_right _ hx),
    hmarked _ fun x => List.mem_append_right _] at hcheck
  exact hcheck

/-- An untagged record has no duplicates. -/
theorem duplicateCheck_of_untagged (hr : heldRecord s r.ref = some r) (htag : r.tag = none) :
    duplicateCheck r.ref s = s := by
  have hnone : duplicatesOf s r = [] := by
    rw [duplicatesOf_eq_nil_iff, foundDuplicate, List.any_eq_false]
    intro x _
    simp [duplicateOf, twin, htag]
  rw [duplicateCheck, hr]
  dsimp only
  rw [hnone]

/-! ## The place by travel (R23) -/

theorem insertByTravel_spec (s : State) (r : Record) (l : List Record) :
    ∃ l₁ l₂, l = l₁ ++ l₂ ∧ insertByTravel s r l = l₁ ++ r :: l₂
      ∧ (∀ x ∈ l₁, leadTravel s r ≤ leadTravel s x)
      ∧ ∀ x, l₂.head? = some x → leadTravel s x < leadTravel s r := by
  induction l with
  | nil => exact ⟨[], [], rfl, rfl, by simp, by simp⟩
  | cons x l ih =>
    by_cases h : leadTravel s x < leadTravel s r
    · refine ⟨[], x :: l, rfl, if_pos h, by simp, ?_⟩
      intro y hy
      rwa [← Option.some.inj hy]
    · obtain ⟨l₁, l₂, rfl, hinsert, hfront, hbehind⟩ := ih
      refine ⟨x :: l₁, l₂, rfl, (if_neg h).trans (by rw [hinsert]; rfl), fun y hy => ?_, hbehind⟩
      rcases List.mem_cons.mp hy with rfl | hy
      · exact not_lt.mp h
      · exact hfront y hy

/-! ## The merged record (R152, R153) -/

/-- The record of a merged bag. -/
def mergedBag (coded : Bool) (s : State) : Record :=
  newRecord (drawnRef s) (behind s.position.counter s.start.image.mergeDistance) (mergedTag coded s).1
    (mergedTag coded s).2

theorem leadTravel_mergedBag (coded : Bool) (h : s.start.image.mergeDistance ≤ 65535) :
    leadTravel s (mergedBag coded s) = s.start.image.mergeDistance := by
  have hdist := dist_ahead_behind s.position.counter (m := s.start.image.mergeDistance) (n := 0)
    (by omega) (by omega)
  rw [ahead, BitVec.add_zero] at hdist
  exact hdist.trans (by omega)

/-- A merged record in its place, before its occupancy, its checks and its request. -/
def mergedPlaced (coded : Bool) (l₁ l₂ : List Record) (s : State) : State :=
  { s with
    track := { s.track with
      bagSeq := nextSeq (drawnRef s).seq
      table := l₁ ++ mergedBag coded s :: l₂
      openMerge := some (drawnRef s) }
    induction := { s.induction with
      codes := if coded then s.induction.codes.tail else s.induction.codes } }

theorem mergedArrival_eq {coded : Bool}
    (hinsert : insertByTravel s (mergedBag coded s) s.track.table = l₁ ++ mergedBag coded s :: l₂) :
    mergedArrival coded s = settleOfferPoint (drawnRef s) (raiseRequest (drawnRef s)
      (if (mergedTag coded s).1.isSome
        then duplicateCheck (drawnRef s) (occupancyRose (mergedPlaced coded l₁ l₂ s))
        else occupancyRose (mergedPlaced coded l₁ l₂ s))) := by
  rw [mergedPlaced, ← hinsert]
  cases coded <;> rfl

/-- The merged record once its duplicate check is done (R34). -/
def mergedChecked (coded duplicate : Bool) (s : State) : Record :=
  if duplicate then marked .duplicate (mergedBag coded s) else mergedBag coded s

/-- A merge before its offer point: the record in its place, its duplicates marked, its resolution asked
for. -/
theorem mergedArrival_spec {coded duplicate : Bool} (hb : BagsKept s)
    (hstates : ∀ x ∈ s.handoff.expected, x.state = .expected) (hroom : s.track.table.length < 48)
    (htable : s.track.table = l₁ ++ l₂)
    (hinsert : insertByTravel s (mergedBag coded s) s.track.table = l₁ ++ mergedBag coded s :: l₂)
    (hdup : duplicate = (s.track.table ++ s.handoff.expected).any (twin (mergedTag coded s).1)) :
    ∃ z, mergedArrival coded s = settleOfferPoint (drawnRef s) z ∧ Requested s z (drawnRef s)
      ∧ z.resolution.exceptions = s.resolution.exceptions ∧ RefsHeldOnce z
      ∧ z = { occupancyRose (mergedPlaced coded l₁ l₂ s) with
        track := { s.track with
          bagSeq := nextSeq (drawnRef s).seq
          table := l₁.map (twinMarked (mergedTag coded s).1 (marked .duplicate))
            ++ mergedChecked coded duplicate s
              :: l₂.map (twinMarked (mergedTag coded s).1 (marked .duplicate))
          openMerge := some (drawnRef s) }
        handoff := { s.handoff with
          expected := s.handoff.expected.map
            (twinMarked (mergedTag coded s).1 (markedDue .duplicate)) }
        resolution := z.resolution
        supervision := if duplicate
          then raised .duplicates (occupancyRose (mergedPlaced coded l₁ l₂ s)).supervision
          else (occupancyRose (mergedPlaced coded l₁ l₂ s)).supervision } := by
  obtain ⟨w, hw⟩ : ∃ w, w = occupancyRose (mergedPlaced coded l₁ l₂ s) := ⟨_, rfl⟩
  obtain ⟨e, he⟩ : ∃ e, e = mergedBag coded s := ⟨_, rfl⟩
  have heref : e.ref = drawnRef s := by rw [he]; rfl
  have hetag : e.tag = (mergedTag coded s).1 := by rw [he]; rfl
  obtain ⟨-, htrack, hres, -, hhandoff, -, -⟩ :=
    occupancyRose_rest (s := mergedPlaced coded l₁ l₂ s)
  rw [← hw] at htrack hres hhandoff
  have hwtable : w.track.table = l₁ ++ e :: l₂ := by rw [htrack, he]; rfl
  have hwlist : w.handoff.expected = s.handoff.expected := by rw [hhandoff]; rfl
  obtain ⟨-, -, hplaced⟩ := bagsKept_place hb htable hroom (r := e)
    (by rw [heref]; exact (drawnRef_spec hb).1)
  have hwrefs : RefsHeldOnce w := by
    refine SameRefs.refsHeldOnce ⟨?_, ?_, ?_⟩ hplaced
    · rw [hwtable]
    · rw [hhandoff]
      rfl
    · rw [hhandoff]
      rfl
  have hin := inTable_of_mem hwrefs (mem_joined hwtable)
  have hcheck := duplicateCheck_joined (duplicate := duplicate) hwrefs (by rwa [hwlist]) hwtable
    (by rw [hdup, hwlist, htable, hetag])
  have hchecked : (if (mergedTag coded s).1.isSome then duplicateCheck (drawnRef s) w else w)
      = duplicateCheck e.ref w := by
    rw [← hetag, ← heref]
    cases htag : e.tag with
    | none => exact (duplicateCheck_of_untagged (heldRecord_of_inTable hin) htag).symm
    | some _ => rfl
  have hkeeps := keepsRequests_duplicateCheck e.ref w
  obtain ⟨d, hd⟩ : ∃ d, d = duplicateCheck e.ref w := ⟨_, rfl⟩
  rw [← hd] at hcheck hkeeps
  have hdexp : inExpected d e.ref = none := by
    rw [← Option.not_isSome_iff_eq_none, hkeeps.refs.inExpected_isSome,
      (not_inbound_of_inTable hwrefs (by rw [hin]; rfl)).2]
    exact Bool.false_ne_true
  have hdheld : (heldRecord d e.ref).isSome = true := by
    rw [hkeeps.refs.heldRecord_isSome, heldRecord_of_inTable hin]
    rfl
  have hraise := raiseRequest_eq_resolution hdexp
  have hkeeps' := hkeeps.trans (keepsRequests_raiseRequest e.ref d)
  refine ⟨raiseRequest e.ref d, ?_, ?_, ?_, hkeeps'.refs.refsHeldOnce hwrefs, ?_⟩
  · rw [mergedArrival_eq hinsert, ← hw, hchecked, heref, hd, heref]
  · rw [← heref]
    exact (requested_between hkeeps hdexp hdheld (.refl _)).congr (by rw [hres]; rfl)
  · rw [hkeeps'.exceptions, hres]
    rfl
  · obtain ⟨v, hv⟩ : ∃ v, v = (raiseRequest e.ref d).resolution := ⟨_, rfl⟩
    rw [← hv] at hraise ⊢
    rw [hraise, hcheck, ← hw, htrack, hhandoff, hetag, mergedChecked, ← he]
    rfl

end

end Sys2Proof.Machine

/-! # What a merge leaves (R126, R128, R152 to R154) -/

namespace Sys2Proof.Machine

section
variable {s t u : State} {ref : BagRef} {r e : Record} {l₁ l₂ : List Record}

/-! ## The offer point of a record that has just joined the table (R126) -/

theorem offerPointReached_joined {m : Nat} (hlead : r.lead = some (behind s.position.counter m))
    (hm : m ≤ 65535) (hoffer : s.start.image.offerDistance ≤ 65535) (hbelt : r.state = .onBelt)
    (hpoint : r.pastOfferPoint = false) :
    offerPointReached s r = decide (s.start.image.offerDistance ≤ m) := by
  unfold offerPointReached
  rw [hlead]
  simp only [image_def, reached_ahead_behind (s := s) (show m ≤ 131070 by omega)
    (show s.start.image.offerDistance ≤ 131070 by omega), hbelt, hpoint, true_or, decide_true,
    Bool.not_false, Bool.true_and]

/-- A record at its offer point as it joins the table becomes EXITING, and the offer passes on. -/
theorem settleOfferPoint_of_past (hrefs : RefsHeldOnce s) (hr : inTable s ref = some r)
    (hreached : offerPointReached s r = true) (hbelt : r.state = .onBelt) (htrail : r.trail = none) :
    settleOfferPoint ref s = takeUpOffer { s with
      track := { s.track with table := updateIn s.track.table ref exitingPast } } := by
  obtain rfl : r.ref = ref := findIn_ref hr
  have hpast := inTable_pastPoint hr
  have hsettle : settleOfferPoint r.ref s = takeOfferPoint r s := by
    rw [settleOfferPoint, hr]
    exact if_pos hreached
  rw [hsettle, takeOfferPoint_eq, if_pos hbelt, becomeExiting_of_stays hpast (by simp [htrail]),
    madeExiting, pastPoint, updateRecord_updateRecord _ _ _ _ (by intro _; rfl),
    updateRecord_of_inTable hrefs (by rw [hr]; rfl)]
  rfl

/-- What an offer point that may be reached at once leaves of the node. -/
theorem settleOfferPoint_joined {past : Bool} {q : Record} (hrefs : RefsHeldOnce s)
    (hr : inTable s ref = some r) (hpast : offerPointReached s r = past) (hbelt : r.state = .onBelt)
    (htrail : r.trail = none) (hq : q = if past then exitingPast r else r) :
    ∃ r' m, settleOfferPoint ref s = m ∧ inTable m ref = some r' ∧ apartFromOffer r' = apartFromOffer q
      ∧ m.track = { s.track with table := m.track.table }
      ∧ m.track.table.map (·.ref) = s.track.table.map (·.ref)
      ∧ (∀ other, other ≠ ref → (inTable m other).map (if past then apartFromOffer else id)
        = (inTable s other).map (if past then apartFromOffer else id))
      ∧ m.handoff.expected = s.handoff.expected
      ∧ (m.handoff.outbound.map (fun o => (o.ref, o.attempts))
        = if past = true ∧ s.handoff.outbound = none
          then (nextOffered (updateIn s.track.table ref exitingPast)).map fun x => (x.ref, 0)
          else s.handoff.outbound.map fun o => (o.ref, o.attempts))
      ∧ m.position = s.position ∧ m.resolution = s.resolution ∧ m.outlets = s.outlets
      ∧ m.induction = s.induction ∧ m.supervision = s.supervision ∧ m.start = s.start := by
  cases past with
  | false =>
    have hstands : settleOfferPoint ref s = s := by
      rw [settleOfferPoint, hr]
      exact if_neg (by simp [hpast])
    refine ⟨r, s, hstands, hr, by rw [hq]; rfl, rfl, rfl, fun _ _ => rfl, rfl, ?_, rfl, rfl, rfl, rfl, rfl,
      rfl⟩
    rw [if_neg (by simp)]
  | true =>
    obtain ⟨w, hw⟩ : ∃ w, w = { s with
        track := { s.track with table := updateIn s.track.table ref exitingPast } } := ⟨_, rfl⟩
    have hsettle := settleOfferPoint_of_past hrefs hr hpast hbelt htrail
    rw [← hw] at hsettle
    have hwtable : w.track.table = updateIn s.track.table ref exitingPast := by rw [hw]
    obtain ⟨hwin, hwothers⟩ := inTable_of_updateIn exitingPast_ref hwtable hr
    have hwrefs : RefsHeldOnce w := by
      refine SameRefs.refsHeldOnce ⟨?_, ?_, ?_⟩ hrefs
      · rw [hwtable]
        exact updateIn_map_ref _ _ _ exitingPast_ref
      · rw [hw]
      · rw [hw]
    obtain ⟨hbags, htrack, -, hexp⟩ := takeUpOffer_spec hwrefs
    obtain ⟨r', hr', hapart⟩ := find_of_sameBags hbags hwin
    obtain ⟨hposition, hres, houtlets, -, hinduction, hsupervision, hstart, -⟩ :=
      takeUpOffer_rest (s := w)
    refine ⟨r', takeUpOffer w, hsettle, hr', by rw [hapart, hq]; rfl, ?_, ?_, fun other hother => ?_, ?_,
      ?_, ?_, ?_, ?_, ?_, ?_, ?_⟩
    · rw [hw] at htrack ⊢
      exact htrack
    · rw [sameBags_refs hbags, hwtable]
      exact updateIn_map_ref _ _ _ exitingPast_ref
    · rw [← hwothers other hother]
      exact sameBags_find hbags other
    · rw [hexp, hw]
    · rw [takeUpOffer_outbound, nextToOffer_eq, hwtable, hw]
      simp
    · rw [hposition, hw]
    · rw [hres, hw]
    · rw [houtlets, hw]
    · rw [hinduction, hw]
    · rw [hsupervision, hw]
    · rw [hstart, hw]

/-! ## FORCED MERGE (R154) -/

/-- FORCED MERGE set where the merge is forced. -/
def forcedIf (forced : Bool) (s : State) : State := if forced then setForcedMerge s else s

theorem forcedIf_rest (forced : Bool) (s : State) :
    (forcedIf forced s).position = s.position ∧ (forcedIf forced s).track = s.track
      ∧ (forcedIf forced s).resolution = s.resolution ∧ (forcedIf forced s).outlets = s.outlets
      ∧ (forcedIf forced s).handoff = s.handoff ∧ (forcedIf forced s).induction = s.induction
      ∧ (forcedIf forced s).start = s.start
      ∧ (∀ c, (forcedIf forced s).counter c = s.counter c)
      ∧ (forcedIf forced s).supervision.flags.forcedMerge
        = (s.supervision.flags.forcedMerge || forced) := by
  cases forced
  · exact ⟨rfl, rfl, rfl, rfl, rfl, rfl, rfl, fun _ => rfl, (Bool.or_false _).symm⟩
  · exact ⟨rfl, rfl, rfl, rfl, rfl, rfl, rfl, fun _ => rfl, (Bool.or_true _).symm⟩

theorem raised_forcedMerge (c : Counter) (u : SupervisionUnit) :
    (raised c u).flags.forcedMerge = u.flags.forcedMerge := rfl

theorem queueNotice_forcedMerge (f : OutFrame) (s : State) :
    (queueNotice f s).supervision.flags.forcedMerge = s.supervision.flags.forcedMerge := by
  unfold queueNotice
  split
  · rfl
  · rw [bumpOutsideFault]
    split
    · rfl
    · rw [bump_eq]
      rfl

theorem occupancyRose_forcedMerge (s : State) :
    (occupancyRose s).supervision.flags.forcedMerge = s.supervision.flags.forcedMerge := by
  unfold occupancyRose
  split
  · exact queueNotice_forcedMerge _ _
  · rfl

end

end Sys2Proof.Machine

/-! # Merges into a table with room (O24) -/

namespace Sys2Proof.Machine

section
variable {s t u : State} {ref : BagRef} {r e : Record} {l₁ l₂ : List Record}

theorem nextOffered_joined {x : Record} (hstate : x.state = .exiting) (hheld : x.heldOffer = false)
    (l₁ l₂ : List Record) : (nextOffered (l₁ ++ x :: l₂)).map (fun y => (y.ref, 0))
      = some ((nextOffered l₁).elim x.ref (·.ref), 0) := by
  rw [nextOffered, List.find?_append, List.find?_cons_of_pos (by simp [hstate, hheld])]
  show ((nextOffered l₁).or (some x)).map _ = _
  cases nextOffered l₁ <;> rfl

/-- Marks leave who is next to be offered. -/
theorem nextOffered_twinMarked (tag : Option Tag) (cause : StrayCause) (ref : BagRef) (l : List Record) :
    (nextOffered (l.map (twinMarked tag (marked cause)))).elim ref (·.ref)
      = (nextOffered l).elim ref (·.ref) := by
  have hpred : ((fun x : Record => decide (x.state = .exiting) && !x.heldOffer)
      ∘ twinMarked tag (marked cause)) = fun x => decide (x.state = .exiting) && !x.heldOffer := by
    funext x
    unfold twinMarked
    by_cases h : twin tag x = true <;> simp [h, marked]
  rw [nextOffered, List.find?_map, hpred, nextOffered]
  cases l.find? fun x => decide (x.state = .exiting) && !x.heldOffer with
  | none => rfl
  | some x => exact twinMarked_ref (marked_ref cause) tag x

theorem updateIn_joined {f : Record → Record} (hx : ∀ y ∈ l₁ ++ l₂, y.ref ≠ e.ref) :
    updateIn (l₁ ++ e :: l₂) e.ref f = l₁ ++ f e :: l₂ := by
  have hout (l : List Record) (hl : ∀ y ∈ l, y.ref ≠ e.ref) : updateIn l e.ref f = l :=
    updateIn_fixed fun y hy h => absurd h (hl y hy)
  have hsplit : updateIn (l₁ ++ e :: l₂) e.ref f
      = updateIn l₁ e.ref f ++ (if e.ref = e.ref then f e else e) :: updateIn l₂ e.ref f := by
    simp [updateIn]
  rw [hsplit, if_pos rfl, hout l₁ fun y hy => hx y (List.mem_append_left _ hy),
    hout l₂ fun y hy => hx y (List.mem_append_right _ hy)]

theorem any_twin_none (l : List Record) : l.any (twin none) = false := by simp [twin]

theorem map_twinMarked_none (mark : Record → Record) (l : List Record) :
    l.map (twinMarked none mark) = l := by
  have hid : twinMarked none mark = id := by
    funext x
    simp [twinMarked, twin]
  rw [hid, List.map_id]

theorem mergedTag_plain (s : State) : mergedTag false s = (none, none) := rfl

theorem mergedTag_of_none (h : s.induction.codes = []) :
    mergedTag true s = (none, some .noread) := by
  simp [mergedTag, h]

theorem mergedTag_of_code {c : Code} {rest : List Code} (h : s.induction.codes = c :: rest) :
    mergedTag true s = (some ⟨c.cabin, c.letter, .coded⟩, none) := by
  simp [mergedTag, h]

theorem mergedChecked_fields (coded duplicate : Bool) (s : State) :
    (mergedChecked coded duplicate s).ref = drawnRef s
      ∧ (mergedChecked coded duplicate s).tag = (mergedTag coded s).1
      ∧ (mergedChecked coded duplicate s).stray
        = (if duplicate = true ∧ (mergedTag coded s).2 = none then some .duplicate
          else (mergedTag coded s).2)
      ∧ (mergedChecked coded duplicate s).state = .onBelt
      ∧ (mergedChecked coded duplicate s).heldOffer = false
      ∧ (mergedChecked coded duplicate s).trail = none
      ∧ (mergedChecked coded duplicate s).pastOfferPoint = false
      ∧ (mergedChecked coded duplicate s).lead
        = some (behind s.position.counter s.start.image.mergeDistance) := by
  cases duplicate
  · exact ⟨rfl, rfl, (if_neg (by simp)).symm, rfl, rfl, rfl, rfl, rfl⟩
  · refine ⟨rfl, rfl, ?_, rfl, rfl, rfl, rfl, rfl⟩
    by_cases h : (mergedTag coded s).2 = none <;> simp [mergedChecked, marked, mergedBag, newRecord, h]

/-! ## The record as the merge leaves it -/

/-- The merged record in the end, apart from the offer it may hold. -/
def mergedEnd (coded duplicate past : Bool) (s : State) : Record :=
  if past then exitingPast (mergedChecked coded duplicate s) else mergedChecked coded duplicate s

theorem mergedEnd_fields {coded duplicate past : Bool}
    (hr : apartFromOffer r = apartFromOffer (mergedEnd coded duplicate past s)) :
    r.lead = some (behind s.position.counter s.start.image.mergeDistance) ∧ r.trail = none ∧ r.laps = 0
      ∧ r.refusals = [] ∧ r.length = none ∧ r.verdict = .unresolved
      ∧ r.pastOfferPoint = past ∧ r.state = (if past then .exiting else .onBelt)
      ∧ r.tag = (mergedTag coded s).1
      ∧ r.stray = (if duplicate = true ∧ (mergedTag coded s).2 = none then some .duplicate
        else (mergedTag coded s).2) := by
  obtain ⟨-, -, hstray, -⟩ := mergedChecked_fields coded duplicate s
  have hfield {α : Type} (p : Record → α) (hp : ∀ y, p (apartFromOffer y) = p y) :
      p r = p (mergedEnd coded duplicate past s) := by
    rw [← hp r, hr, hp]
  rw [← hstray, hfield (·.lead) fun _ => rfl, hfield (·.trail) fun _ => rfl,
    hfield (·.laps) fun _ => rfl, hfield (·.refusals) fun _ => rfl, hfield (·.length) fun _ => rfl,
    hfield (·.verdict) fun _ => rfl, hfield (·.pastOfferPoint) fun _ => rfl,
    hfield (·.state) fun _ => rfl, hfield (·.tag) fun _ => rfl, hfield (·.stray) fun _ => rfl]
  cases past <;> cases duplicate <;> exact ⟨rfl, rfl, rfl, rfl, rfl, rfl, rfl, rfl, rfl, rfl⟩

/-! ## The state as the merge leaves it -/

/-- What a merge into a table with room leaves, the permit and FORCED MERGE aside. -/
structure Merged (coded duplicate past : Bool) (l₁ l₂ : List Record) (s t : State) : Prop where
  refs : t.track.table.map (·.ref) = l₁.map (·.ref) ++ [drawnRef s] ++ l₂.map (·.ref)
  record : ∃ r, inTable t (drawnRef s) = some r
    ∧ apartFromOffer r = apartFromOffer (mergedEnd coded duplicate past s)
  others : ∀ x ∈ s.track.table, (inTable t x.ref).map (if past then apartFromOffer else id)
    = some ((if past then apartFromOffer else id)
      (twinMarked (mergedTag coded s).1 (marked .duplicate) x))
  track : t.track = { s.track with
    table := t.track.table
    bagSeq := nextSeq (drawnRef s).seq
    openMerge := some (drawnRef s) }
  expected : t.handoff.expected
    = s.handoff.expected.map (twinMarked (mergedTag coded s).1 (markedDue .duplicate))
  offer : (t.handoff.outbound.map fun o => (o.ref, o.attempts))
    = if past = true ∧ s.handoff.outbound = none
      then some ((nextOffered l₁).elim (drawnRef s) (·.ref), 0)
      else s.handoff.outbound.map fun o => (o.ref, o.attempts)
  codes : t.induction.codes = if coded then s.induction.codes.tail else s.induction.codes
  duplicates : t.counter .duplicates
    = if duplicate then nextCount (s.counter .duplicates) else s.counter .duplicates
  requested : Requested s t (drawnRef s)
  exceptions : t.resolution.exceptions = s.resolution.exceptions
  position : t.position = s.position
  outlets : t.outlets = s.outlets
  start : t.start = s.start

theorem Merged.eventEnd {coded duplicate past : Bool} {m : State} (forced : Bool)
    (h : Merged coded duplicate past l₁ l₂ s m) :
    Merged coded duplicate past l₁ l₂ s (arbitrate (decidePermit (forcedIf forced m))) := by
  obtain ⟨hfPosition, hfTrack, hfRes, hfOutlets, hfHandoff, hfInduction, hfStart, hfCounter, -⟩ :=
    forcedIf_rest forced m
  obtain ⟨x, hx⟩ : ∃ x, x = forcedIf forced m := ⟨_, rfl⟩
  rw [← hx] at hfPosition hfTrack hfRes hfOutlets hfHandoff hfInduction hfStart hfCounter ⊢
  obtain ⟨htPosition, htTrack, htRes, htOutlets, htStart, htCodes, -⟩ := eventEnd_rest x
  obtain ⟨htCounter, -, -⟩ := eventEnd_supervision x
  obtain ⟨htExp, -, htOut⟩ := eventEnd_handoff x
  have htrack := htTrack.trans hfTrack
  have hres := htRes.trans hfRes
  have hin (ref : BagRef) : inTable (arbitrate (decidePermit x)) ref = inTable m ref :=
    inTable_congr (congrArg _ htrack) ref
  refine ⟨?_, ?_, fun y hy => ?_, ?_, ?_, ?_, ?_, ?_, ?_, ?_, ?_, ?_, ?_⟩
  · rw [htrack, h.refs]
  · rw [hin]
    exact h.record
  · rw [hin]
    exact h.others y hy
  · rw [htrack]
    exact h.track
  · rw [htExp, hfHandoff, h.expected]
  · rw [htOut, hfHandoff, h.offer]
  · rw [htCodes, hfInduction, h.codes]
  · rw [htCounter, hfCounter, h.duplicates]
  · rw [Requested, hres]
    exact h.requested
  · rw [hres, h.exceptions]
  · rw [htPosition, hfPosition, h.position]
  · rw [htOutlets, hfOutlets, h.outlets]
  · rw [htStart, hfStart, h.start]

/-- A merge into a table with room, its offer point taken where it is reached already. -/
theorem merged_mergedArrival {coded duplicate past : Bool} (hb : BagsKept s)
    (hstates : ∀ x ∈ s.handoff.expected, x.state = .expected) (hroom : s.track.table.length < 48)
    (htable : s.track.table = l₁ ++ l₂)
    (hinsert : insertByTravel s (mergedBag coded s) s.track.table = l₁ ++ mergedBag coded s :: l₂)
    (hdup : duplicate = (s.track.table ++ s.handoff.expected).any (twin (mergedTag coded s).1))
    (hm : s.start.image.mergeDistance ≤ 65535) (hoffer : s.start.image.offerDistance ≤ 65535)
    (hpast : past = decide (s.start.image.offerDistance ≤ s.start.image.mergeDistance)) :
    Merged coded duplicate past l₁ l₂ s (mergedArrival coded s)
      ∧ (mergedArrival coded s).supervision.flags.forcedMerge = s.supervision.flags.forcedMerge := by
  obtain ⟨z, hmerged, hrequested, hzexc, hzrefs, hz⟩ :=
    mergedArrival_spec hb hstates hroom htable hinsert hdup
  obtain ⟨heref, -, -, hestate, heheld, hetrail, hepoint, helead⟩ :=
    mergedChecked_fields coded duplicate s
  obtain ⟨w, hw⟩ : ∃ w, w = occupancyRose (mergedPlaced coded l₁ l₂ s) := ⟨_, rfl⟩
  obtain ⟨v, hv⟩ : ∃ v, v = z.resolution := ⟨_, rfl⟩
  obtain ⟨e, he⟩ : ∃ e, e = mergedChecked coded duplicate s := ⟨_, rfl⟩
  obtain ⟨hwposition, -, -, hwoutlets, -, hwstart, -⟩ :=
    occupancyRose_rest (s := mergedPlaced coded l₁ l₂ s)
  have hwcodes := occupancyRose_codes (mergedPlaced coded l₁ l₂ s)
  have hwforced := occupancyRose_forcedMerge (mergedPlaced coded l₁ l₂ s)
  have hwduplicates : (occupancyRose (mergedPlaced coded l₁ l₂ s)).supervision.counters.get .duplicates
      = s.counter .duplicates := occupancyRose_counter (by decide) (mergedPlaced coded l₁ l₂ s)
  rw [← hw] at hz hwposition hwoutlets hwstart hwcodes hwforced hwduplicates
  rw [← he] at heref hestate heheld hetrail hepoint helead hz
  rw [← hv] at hz
  have hztable : z.track.table = l₁.map (twinMarked (mergedTag coded s).1 (marked .duplicate))
      ++ e :: l₂.map (twinMarked (mergedTag coded s).1 (marked .duplicate)) := by rw [hz]
  have hzposition : z.position = s.position := (congrArg (·.position) hz).trans hwposition
  have hzstart : z.start = s.start := (congrArg (·.start) hz).trans hwstart
  have hzin : inTable z (drawnRef s) = some e := by
    rw [← heref]
    exact inTable_of_mem hzrefs (mem_joined hztable)
  have hpoint : offerPointReached z e = past := by
    rw [offerPointReached_joined (by rw [hzposition]; exact helead) hm (by rw [hzstart]; exact hoffer)
      hestate hepoint, hzstart, hpast]
  obtain ⟨r', m, hmeq, hmin, hapart, hmtrack, hmrefs, hmothers, hmexp, hmout, hmposition, hmres,
    hmoutlets, hminduction, hmsupervision, hmstart⟩ :=
    settleOfferPoint_joined hzrefs hzin hpoint hestate hetrail rfl
  have hrefne : ∀ y ∈ s.track.table, y.ref ≠ drawnRef s := fun y hy h =>
    findIn_eq_none.mp (not_inTable_of_free (drawnRef_spec hb).1) (h ▸ List.mem_map_of_mem hy)
  rw [hmerged, hmeq]
  refine ⟨⟨?_, ⟨r', hmin, ?_⟩, fun y hy => ?_, ?_, ?_, ?_, ?_, ?_, ?_, ?_, ?_, ?_, ?_⟩, ?_⟩
  · rw [hmrefs, hztable, List.map_append, List.map_cons, map_twinMarked_refs (marked_ref .duplicate),
      map_twinMarked_refs (marked_ref .duplicate), heref, List.append_assoc]
    rfl
  · rw [hapart, mergedEnd, he]
  · have hmem : twinMarked (mergedTag coded s).1 (marked .duplicate) y ∈ z.track.table := by
      rw [htable, List.mem_append] at hy
      rw [hztable, List.mem_append, List.mem_cons]
      exact hy.imp (fun h => List.mem_map_of_mem h) fun h => .inr (List.mem_map_of_mem h)
    have hin := inTable_of_mem hzrefs hmem
    rw [twinMarked_ref (marked_ref .duplicate)] at hin
    rw [hmothers y.ref (hrefne y hy), hin]
    rfl
  · rw [hmtrack, hz]
  · rw [hmexp, hz]
  · have hnext : (nextOffered (updateIn z.track.table (drawnRef s) exitingPast)).map (fun x => (x.ref, 0))
        = some ((nextOffered l₁).elim (drawnRef s) (·.ref), 0) := by
      rw [hztable, ← heref, updateIn_joined fun y hy => ?_,
        nextOffered_joined (x := exitingPast e) rfl heheld, nextOffered_twinMarked]
      · rfl
      · rw [← List.map_append, ← htable] at hy
        obtain ⟨y', hy', rfl⟩ := List.mem_map.mp hy
        rw [twinMarked_ref (marked_ref .duplicate), heref]
        exact hrefne y' hy'
    rw [hmout, hnext, hz]
  · rw [hminduction, hz]
    exact hwcodes
  · rw [State.counter, hmsupervision, hz, ← hwduplicates]
    cases duplicate
    · rfl
    · exact raised_get_same _ _
  · rw [Requested, hmres]
    exact hrequested
  · rw [hmres, hzexc]
  · rw [hmposition, hzposition]
  · rw [hmoutlets, hz]
    exact hwoutlets
  · rw [hmstart, hzstart]
  · rw [hmsupervision, hz]
    cases duplicate <;> exact hwforced

/-- Settles O24: merges with room in the track table. -/
theorem mergePlacesByTravel : Obligations.MergePlacesByTravel := by
  rintro s coded past _ same hb ⟨-, -, hstates⟩ hrun hclear hind hroom rfl hm hoffer hpast rfl
  obtain ⟨hfree, hfirst⟩ := drawnRef_spec hb
  obtain ⟨l₁, l₂, htable, hinsert, hfront, hbehind⟩ :=
    insertByTravel_spec s (mergedBag coded s) s.track.table
  rw [leadTravel_mergedBag coded hm] at hfront hbehind
  obtain ⟨duplicate, hdup⟩ : ∃ d, d = (s.track.table ++ s.handoff.expected).any
    (twin (mergedTag coded s).1) := ⟨_, rfl⟩
  obtain ⟨hmerged, hmforced⟩ :=
    merged_mergedArrival hb hstates hroom htable hinsert hdup hm hoffer hpast
  have hnotFull : decide (Config.tableCapacity ≤ occupancy s) = false :=
    decide_eq_false (not_le.mpr hroom)
  have hexec := exec_mergeArrival coded hrun hclear hind (m := mergedArrival coded s) (by
    rw [hnotFull]
    rfl)
  rw [hnotFull, Bool.false_or] at hexec
  have hend := hmerged.eventEnd (!s.induction.permit)
  obtain ⟨-, -, -, -, -, -, -, -, hfForced⟩ := forcedIf_rest (!s.induction.permit) (mergedArrival coded s)
  obtain ⟨-, htFlags, -⟩ :=
    eventEnd_supervision (forcedIf (!s.induction.permit) (mergedArrival coded s))
  obtain ⟨r', hr', hapart⟩ := hend.record
  obtain ⟨hlead, htrail, hlaps, hrefusals, hlength, hverdict, hpoint, hstate, htag, hstray⟩ :=
    mergedEnd_fields hapart
  have hoffered := hend.offer
  have hexpected := hend.expected
  have hothers := hend.others
  have hduplicates := hend.duplicates
  refine ⟨drawnRef s, r', l₁, l₂, _, hexec, rfl, hfree, hfirst, htable, hend.refs, hfront, hbehind, hr',
    congrArg (·.openMerge) hend.track, hlead, htrail, hlaps, hrefusals, hlength, hverdict, hpoint, hstate,
    fun hheld => ?_, fun hp hnone => hoffered.trans (if_pos ⟨hp, hnone⟩), ?_, ?_, fun hplain => ?_, ?_,
    ?_, hend.requested, congrArg (·.bagSeq) hend.track, congrArg (·.openEntry) hend.track,
    hend.position, hend.outlets, hend.start, hend.exceptions⟩
  · refine hoffered.trans (if_neg ?_)
    rintro ⟨hp, hnone⟩
    exact hheld.elim (fun h => Bool.false_ne_true (h.symm.trans hp)) fun h => h hnone
  · rintro rfl
    rw [mergedTag_plain, any_twin_none] at hdup
    rw [hdup] at hstray
    exact ⟨htag, hstray, hend.codes⟩
  · rintro rfl hnone
    rw [mergedTag_of_none hnone] at htag hstray
    refine ⟨htag, ?_, ?_⟩
    · rw [hstray]
      exact if_neg (by simp)
    · refine hend.codes.trans ?_
      rw [hnone]
      rfl
  · have hnotag : (mergedTag coded s).1 = none := by
      cases coded with
      | false => rfl
      | true => rw [mergedTag_of_none (hplain.resolve_left nofun)]
    rw [hnotag] at hdup hothers hexpected
    rw [any_twin_none] at hdup
    refine ⟨fun y hy => ?_, ?_, ?_⟩
    · refine (hothers y hy).trans ?_
      simp [twinMarked, twin]
    · exact hexpected.trans (map_twinMarked_none _ _)
    · refine hduplicates.trans ?_
      rw [hdup]
      rfl
  · rintro c rest tag dup rfl hcode rfl hdup'
    rw [mergedTag_of_code hcode] at htag hstray hdup hothers hexpected
    rw [← hdup'] at hdup
    rw [hdup] at hstray hduplicates
    refine ⟨htag, ?_, ?_, hothers, hexpected, hduplicates⟩
    · refine hend.codes.trans ?_
      rw [hcode]
      rfl
    · simpa using hstray
  · have hflag := (congrArg (·.forcedMerge) htFlags).trans hfForced
    rw [hmforced] at hflag
    rw [← Bool.not_eq_true', ← Bool.or_eq_true, ← hflag]
    rfl

end

end Sys2Proof.Machine

/-! # Promotion (R24, R34, R68, R69, R96 to R98) -/

namespace Sys2Proof.Machine

section
variable {s t u w z : State} {ref : BagRef} {r e : Record} {l : List Record} {sup : SupervisionUnit}

/-! ## What the steps of a promotion leave -/

/-- A state with another track table and other counters, and with requests that only rose. -/
def Rewritten (w : State) (l : List Record) (sup : SupervisionUnit) (z : State) : Prop :=
  z = { w with
      track := { w.track with table := l }
      resolution := z.resolution
      supervision := sup }
    ∧ KeepsRequests w z

theorem Rewritten.table (h : Rewritten w l sup z) : z.track.table = l := congrArg (·.track.table) h.1

theorem Rewritten.supervision (h : Rewritten w l sup z) : z.supervision = sup :=
  congrArg (·.supervision) h.1

theorem Rewritten.refsHeldOnce (h : Rewritten w l sup z) (hrefs : RefsHeldOnce w) : RefsHeldOnce z :=
  h.2.refs.refsHeldOnce hrefs

theorem Rewritten.inTable_tail (h : Rewritten w (l ++ [e]) sup z) (hrefs : RefsHeldOnce w) :
    inTable z e.ref = some e :=
  inTable_of_mem (h.refsHeldOnce hrefs) (mem_joined h.table)

theorem Rewritten.updateIn_tail (h : Rewritten w (l ++ [e]) sup z) (hrefs : RefsHeldOnce w)
    (f : Record → Record) : updateIn (l ++ [e]) e.ref f = l ++ [f e] :=
  updateIn_joined fun _ hy =>
    ref_ne_of_joined (h.refsHeldOnce hrefs) h.table (List.mem_append_left _ hy)

theorem Rewritten.step {l' : List Record} {sup' : SupervisionUnit} (h : Rewritten w l sup z)
    (hu : Rewritten z l' sup' u) : Rewritten w l' sup' u := by
  obtain ⟨heq, hkeeps⟩ := h
  obtain ⟨heq', hkeeps'⟩ := hu
  refine ⟨?_, hkeeps.trans hkeeps'⟩
  obtain ⟨v, hv⟩ : ∃ v, v = u.resolution := ⟨_, rfl⟩
  rw [← hv] at heq' ⊢
  rw [heq', heq]

theorem rewritten_raiseRequest (hexp : inExpected w ref = none) :
    Rewritten w w.track.table w.supervision (raiseRequest ref w) :=
  ⟨raiseRequest_eq_resolution hexp, keepsRequests_raiseRequest ref w⟩

/-! ## The loop head (R96, R98) -/

/-- A record as the loop head leaves it. -/
def lappedAt (loopHead : Bool) (limit : Nat) (x : Record) : Record :=
  if loopHead then
    (if limit ≤ (raiseLaps x).laps then marked .laps (raiseLaps x) else raiseLaps x)
  else x

theorem rewritten_lapAtLoopHead (hrefs : RefsHeldOnce w) (h : Rewritten w (l ++ [e]) sup z) :
    Rewritten w (l ++ [lappedAt w.start.image.loopHead w.start.image.lapLimit e]) sup
      (lapAtLoopHead e.ref z) := by
  have hzrefs := h.refsHeldOnce hrefs
  have hin := h.inTable_tail hrefs
  have htail := h.updateIn_tail hrefs
  have hstart : z.start = w.start := congrArg (·.start) h.1
  unfold lapAtLoopHead lappedAt
  rw [image_def, hstart]
  cases w.start.image.loopHead with
  | false => exact h
  | true =>
    refine h.step ?_
    have hheld : heldRecord (updateRecord e.ref raiseLaps z) e.ref = some (raiseLaps e) := by
      rw [heldRecord_updateRecord_same (by intro _; rfl), heldRecord_of_inTable hin]
      rfl
    have hcheck := lapCheck_eq hheld
    have hlimit : (updateRecord e.ref raiseLaps z).start.image.lapLimit = w.start.image.lapLimit :=
      congrArg (·.image.lapLimit) hstart
    have hraise := keepsRequests_updateRecord e.ref (f := raiseLaps) (fun _ => rfl) z
    rw [hlimit] at hcheck
    by_cases hlaps : w.start.image.lapLimit ≤ (raiseLaps e).laps
    · rw [if_pos hlaps] at hcheck
      have hmark := markStray_updateRecord_inTable (cause := .laps) (f := raiseLaps) (fun _ => rfl)
        hzrefs hin
      rw [h.table, htail] at hmark
      rw [if_pos rfl, if_pos rfl, if_pos hlaps, hcheck, h.supervision.symm]
      exact ⟨hmark, hraise.trans (keepsRequests_markStray _ _ _)⟩
    · rw [if_neg hlaps] at hcheck
      have hupdate := updateRecord_of_inTable (f := raiseLaps) hzrefs (ref := e.ref) (by rw [hin]; rfl)
      rw [h.table, htail] at hupdate
      rw [if_pos rfl, if_pos rfl, if_neg hlaps, hcheck, h.supervision.symm]
      exact ⟨hupdate, hraise⟩

/-! ## The duplicate check (R34) -/

theorem rewritten_duplicateCheck {duplicate : Bool} (hrefs : RefsHeldOnce w)
    (h : Rewritten w (l ++ [e]) sup z) (hexp : w.handoff.expected = [])
    (hdup : duplicate = l.any (twin e.tag)) :
    Rewritten w (l.map (twinMarked e.tag (marked .duplicate))
        ++ [if duplicate then marked .duplicate e else e])
      (if duplicate then raised .duplicates sup else sup) (duplicateCheck e.ref z) := by
  have hzexp : z.handoff.expected = [] := (congrArg (·.handoff.expected) h.1).trans hexp
  have hcheck := duplicateCheck_joined (duplicate := duplicate) (h.refsHeldOnce hrefs)
    (by simp [hzexp]) h.table (by rw [hdup, hzexp]; simp)
  refine h.step ⟨?_, keepsRequests_duplicateCheck _ _⟩
  have hkept : z.handoff.expected.map (twinMarked e.tag (markedDue .duplicate)) = z.handoff.expected := by
    rw [hzexp]
    rfl
  rw [h.supervision, hkept] at hcheck
  exact hcheck

/-! ## Arming at once (R68, R69) -/

theorem reached_behind_ahead {d a : Nat} (hd : d ≤ 131070) (ha : a ≤ 131070) :
    reached s (behind (ahead s.position.counter d) a) = decide (d ≤ a) := by
  rw [← reached_ahead_behind ha hd]
  congr 1
  exact add_sub_right_comm _ _ _

theorem takeArming_of_oversize {k : OutletNo} (h : armingResult s k r = .oversize) :
    takeArming k r s = markStray .oversize r.ref (refuse .oversize r.ref s) := by
  rw [takeArming, h]

/-- The outlet of a verdict lies no farther than the arming distance. -/
def armsAtOnce (s : State) (v : Verdict) : Bool :=
  (verdictOutlet v).any fun k =>
    decide ((s.start.image.outlets.get k).distance ≤ s.start.image.armDistance)

theorem rewritten_settleArming (hrefs : RefsHeldOnce w) (h : Rewritten w (l ++ [e]) sup z)
    (hbelt : e.state = .onBelt) (hfixed : e.verdictFixed = false)
    (hlead : e.lead = some w.position.counter) (htrail : e.trail = none)
    (hmerge : w.track.openMerge ≠ some e.ref) (harm : w.start.image.armDistance ≤ 65535)
    (houtlets : ∀ k, (w.start.image.outlets.get k).distance ≤ 65535) :
    Rewritten w (l ++ [if armsAtOnce w e.verdict
        then marked .oversize (refusedAs w.start.station .oversize e) else e])
      (if armsAtOnce w e.verdict then raised .refusals sup else sup) (settleArming e.ref z) := by
  have hzrefs := h.refsHeldOnce hrefs
  have hin := h.inTable_tail hrefs
  have htail := h.updateIn_tail hrefs
  have hstart : z.start = w.start := congrArg (·.start) h.1
  have hposition : z.position = w.position := congrArg (·.position) h.1
  have hopen : z.track.openMerge = w.track.openMerge := congrArg (·.track.openMerge) h.1
  have harming (k : OutletNo) : armingReached z e = some k ↔ verdictOutlet e.verdict = some k
      ∧ (w.start.image.outlets.get k).distance ≤ w.start.image.armDistance := by
    rw [armingReached_eq_some_iff, hopen, hstart, hlead]
    refine and_congr_right fun _ => ?_
    have hreached := reached_behind_ahead (s := z) (d := (w.start.image.outlets.get k).distance)
      (a := w.start.image.armDistance) (by have := houtlets k; omega) (by omega)
    rw [hposition] at hreached
    simp [hbelt, hfixed, hmerge, hreached]
  cases hat : armsAtOnce w e.verdict with
  | false =>
    have hnone : settleArming e.ref z = z := settleArming_of_none fun x hx => by
      rw [hin] at hx
      cases hx
      refine Option.eq_none_iff_forall_not_mem.mpr fun k hk => ?_
      obtain ⟨hk, hnear⟩ := (harming k).mp hk
      simp [armsAtOnce, hk, hnear] at hat
    rw [hnone]
    exact h
  | true =>
    obtain ⟨k, hk, hnear⟩ : ∃ k, verdictOutlet e.verdict = some k
        ∧ (w.start.image.outlets.get k).distance ≤ w.start.image.armDistance := by
      unfold armsAtOnce at hat
      cases hv : verdictOutlet e.verdict with
      | none => simp [hv] at hat
      | some k => exact ⟨k, rfl, by simpa [hv] using hat⟩
    have hresult : armingResult z k e = .oversize := armingResult_oversize (.inl htrail)
    have hrefuse := refuse_oversize_eq hzrefs hin
    have hstation : z.start.station = w.start.station := congrArg (·.station) hstart
    rw [h.table, htail, h.supervision, hstation] at hrefuse
    rw [settleArming_of_some hin ((harming k).mpr ⟨hk, hnear⟩), takeArming_of_oversize hresult]
    refine h.step ⟨?_, (keepsRequests_refuse _ _ _).trans (keepsRequests_markStray _ _ _)⟩
    exact hrefuse

end

end Sys2Proof.Machine

/-! # Arrivals that a record waits for (O21) -/

namespace Sys2Proof.Machine

section
variable {s t u w z : State} {ref : BagRef} {r e : Record} {l : List Record}

/-! ## The record that joins the table -/

/-- A promoted record once the loop head and the duplicate check are done with it. -/
def arrivedBag (loopHead : Bool) (limit : Nat) (duplicate : Bool) (x : Record) : Record :=
  { x with
    laps := if loopHead then min 7 (x.laps + 1) else x.laps
    stray := if x.stray ≠ none then x.stray
      else if loopHead = true ∧ limit ≤ (if loopHead then min 7 (x.laps + 1) else x.laps) then some .laps
      else if duplicate then some .duplicate else none }

theorem lappedAt_eq (loopHead : Bool) (limit : Nat) (x : Record) : lappedAt loopHead limit x = { x with
    laps := if loopHead then min 7 (x.laps + 1) else x.laps
    stray := if x.stray = none ∧ loopHead = true
        ∧ limit ≤ (if loopHead then min 7 (x.laps + 1) else x.laps) then some .laps
      else x.stray } := by
  cases loopHead with
  | false => simp [lappedAt]
  | true =>
    by_cases hstray : x.stray = none <;> by_cases hlaps : limit ≤ min 7 (x.laps + 1) <;>
      simp [lappedAt, raiseLaps, marked, hlaps, hstray]

theorem arrivedBag_eq (loopHead : Bool) (limit : Nat) (duplicate : Bool) (x : Record) :
    (if duplicate then marked .duplicate (lappedAt loopHead limit x) else lappedAt loopHead limit x)
      = arrivedBag loopHead limit duplicate x := by
  have hmarked : (if duplicate then marked .duplicate (lappedAt loopHead limit x)
        else lappedAt loopHead limit x)
      = { lappedAt loopHead limit x with
        stray := if (lappedAt loopHead limit x).stray = none ∧ duplicate = true then some .duplicate
          else (lappedAt loopHead limit x).stray } := by
    cases duplicate <;> simp [marked]
  rw [hmarked, lappedAt_eq, arrivedBag]
  generalize (if loopHead = true then min 7 (x.laps + 1) else x.laps) = n
  cases x.stray with
  | some cause => simp
  | none => by_cases hlaps : loopHead = true ∧ limit ≤ n <;> simp [hlaps]

/-- A record beside one that joins the table, marked where it is a duplicate. -/
def besideMarked (duplicate : Bool) (tag : Option Tag) (x : Record) : Record :=
  if duplicate && twin tag x then asDuplicate x else x

theorem besideMarked_ref (duplicate : Bool) (tag : Option Tag) (x : Record) :
    (besideMarked duplicate tag x).ref = x.ref := by
  unfold besideMarked
  split <;> rfl

theorem map_besideMarked {duplicate : Bool} {tag : Option Tag} (h : duplicate = l.any (twin tag)) :
    l.map (twinMarked tag (marked .duplicate)) = l.map (besideMarked duplicate tag) := by
  refine List.map_congr_left fun x hx => ?_
  cases hd : duplicate with
  | true => simp [twinMarked, besideMarked, marked_duplicate]
  | false =>
    rw [hd] at h
    have hx' : twin tag x = false := by simpa using List.any_eq_false.mp h.symm x hx
    simp [twinMarked, besideMarked, hx']

theorem map_besideMarked_false (tag : Option Tag) (l : List Record) :
    l.map (besideMarked false tag) = l := by
  have hid : besideMarked false tag = id := by
    funext x
    simp [besideMarked]
  rw [hid, List.map_id]

/-! ## The promotion -/

/-- A found record in its place in the track table. -/
def promotedPlaced (r : Record) (s : State) : State :=
  { moveToTable r.ref (promoted s.position.counter r) s with
    track := { s.track with
      table := s.track.table ++ [promoted s.position.counter r]
      openEntry := some r.ref } }

theorem promote_eq (fromPending : Bool) (r : Record) (s : State) : promote fromPending r s
    = settleHead (settleOfferPoint r.ref (settleArming r.ref
      (if fromPending
        then duplicateCheck r.ref
          (lapAtLoopHead r.ref (raiseRequest r.ref (occupancyRose (promotedPlaced r s))))
        else lapAtLoopHead r.ref (raiseRequest r.ref (occupancyRose (promotedPlaced r s)))))) := rfl

theorem entryArrival_of_found (hroom : s.track.table.length < 48)
    (hr : s.handoff.expected.head? = some r
      ∨ (s.handoff.expected = [] ∧ s.handoff.pendingOffers.head? = some r)) :
    entryArrival s = promote (decide (s.handoff.expected = [])) r s := by
  have hfull : ¬ decide (Config.tableCapacity ≤ occupancy s) = true := fun h =>
    absurd (of_decide_eq_true h) (not_le.mpr hroom)
  unfold entryArrival
  rcases hr with hexp | ⟨hexp, hpend⟩
  · obtain ⟨rest, hcons⟩ := List.head?_eq_some_iff.mp hexp
    rw [hcons]
    exact if_neg hfull
  · obtain ⟨rest, hcons⟩ := List.head?_eq_some_iff.mp hpend
    rw [hexp, hcons]
    exact if_neg hfull

theorem HeadsLeave.requested (h : HeadsLeave t u) (hr : Requested s t ref)
    (hnone : inExpected t ref = none) : Requested s u ref := by
  refine ⟨fun hbusy => h.requests ref hnone (hr.1 hbusy), ?_⟩
  rcases hr.2 with hwaits | ⟨v, hv, howner⟩
  · exact .inl (h.requests ref hnone hwaits)
  · exact .inr ⟨v, h.service v ref hv howner hnone, howner⟩

end

end Sys2Proof.Machine

/-! # What a promotion leaves (O21) -/

namespace Sys2Proof.Machine

section
variable {s t u w z : State} {ref : BagRef} {r e : Record} {l : List Record}

/-- The record of a promotion in the end, armed at once where its outlet is as near as that (R68, R69). -/
def promotedBag (duplicate armed : Bool) (s : State) (r : Record) : Record :=
  let e := arrivedBag s.start.image.loopHead s.start.image.lapLimit duplicate
    (promoted s.position.counter r)
  if armed then marked .oversize (refusedAs s.start.station .oversize e) else e

/-- The counters of a promotion in the end. -/
def promotedCounts (duplicate armed : Bool) (u : SupervisionUnit) : SupervisionUnit :=
  let v := if duplicate then raised .duplicates u else u
  if armed then raised .refusals v else v

/-- A promotion before the next heads leave. -/
theorem promote_spec {duplicate : Bool} (hb : BagsKept s)
    (hr : s.handoff.expected.head? = some r
      ∨ (s.handoff.expected = [] ∧ s.handoff.pendingOffers.head? = some r))
    (hdup : duplicate = (decide (s.handoff.expected = []) && s.track.table.any (twin r.tag)))
    (hlow : 1 ≤ s.start.image.offerDistance) (hhigh : s.start.image.offerDistance ≤ 65535)
    (harm : s.start.image.armDistance ≤ 65535)
    (houtlets : ∀ k, (s.start.image.outlets.get k).distance ≤ 65535)
    (hmerge : s.track.openMerge ≠ some r.ref) :
    ∃ b z, promote (decide (s.handoff.expected = [])) r s = settleHead z
      ∧ b = raiseRequest r.ref (occupancyRose (promotedPlaced r s))
      ∧ RefsHeldOnce z ∧ Requested s z r.ref
      ∧ Rewritten b (s.track.table.map (besideMarked duplicate r.tag)
          ++ [promotedBag duplicate (armsAtOnce s r.verdict) s r])
        (promotedCounts duplicate (armsAtOnce s r.verdict)
          (occupancyRose (promotedPlaced r s)).supervision) z
      ∧ b = { occupancyRose (promotedPlaced r s) with resolution := b.resolution }
      ∧ b.resolution.exceptions = s.resolution.exceptions := by
  obtain ⟨w, hw⟩ : ∃ w, w = occupancyRose (promotedPlaced r s) := ⟨_, rfl⟩
  obtain ⟨b, hbeq⟩ : ∃ b, b = raiseRequest r.ref w := ⟨_, rfl⟩
  obtain ⟨hposition, htrack, hres, -, hhandoff, hstart, -⟩ := occupancyRose_rest (s := promotedPlaced r s)
  rw [← hw] at hposition htrack hres hhandoff hstart
  have hmem : r ∈ s.handoff.pendingOffers ++ s.handoff.expected := by
    rcases hr with hexp | ⟨-, hpend⟩
    · exact List.mem_append_right _ (List.mem_of_head? hexp)
    · exact List.mem_append_left _ (List.mem_of_head? hpend)
  have hwrefs : RefsHeldOnce w := by
    refine SameRefs.refsHeldOnce ⟨?_, ?_, ?_⟩
      (refsHeldOnce_moveToTable (e := promoted s.position.counter r) hb.2.2 hmem rfl)
    · rw [htrack]
      rfl
    · rw [hhandoff]
      rfl
    · rw [hhandoff]
      rfl
  have hwtable : w.track.table = s.track.table ++ [promoted s.position.counter r] := by
    rw [htrack]
    rfl
  have hwexp : inExpected w r.ref = none := by
    rw [inExpected, hhandoff]
    exact findIn_filter_same _ _
  have hraise := raiseRequest_eq_resolution hwexp
  rw [← hbeq] at hraise
  have hkeeps := keepsRequests_raiseRequest r.ref w
  rw [← hbeq] at hkeeps
  have hbrefs := hkeeps.refs.refsHeldOnce hwrefs
  have hbstart : b.start = s.start := (congrArg (·.start) hraise).trans hstart
  have hbposition : b.position = s.position := (congrArg (·.position) hraise).trans hposition
  have hbmerge : b.track.openMerge = s.track.openMerge :=
    (congrArg (·.track.openMerge) hraise).trans (congrArg (·.openMerge) htrack)
  have h0 : Rewritten b (s.track.table ++ [promoted s.position.counter r]) w.supervision b := by
    refine ⟨?_, .refl b⟩
    rw [← hwtable]
    obtain ⟨v, hv⟩ : ∃ v, v = b.resolution := ⟨_, rfl⟩
    rw [← hv] at hraise ⊢
    rw [hraise]
  have h1 := rewritten_lapAtLoopHead hbrefs h0
  rw [hbstart] at h1
  obtain ⟨e, he⟩ : ∃ e, e = lappedAt s.start.image.loopHead s.start.image.lapLimit
    (promoted s.position.counter r) := ⟨_, rfl⟩
  have heref : e.ref = r.ref := by rw [he, lappedAt_eq]; rfl
  have hetag : e.tag = r.tag := by rw [he, lappedAt_eq]; rfl
  rw [← he] at h1
  obtain ⟨x, hx⟩ : ∃ x, x = arrivedBag s.start.image.loopHead s.start.image.lapLimit duplicate
    (promoted s.position.counter r) := ⟨_, rfl⟩
  have hchecked : (if duplicate then marked .duplicate e else e) = x := by
    rw [he, hx, arrivedBag_eq]
  obtain ⟨d, hd⟩ : ∃ d, d = if decide (s.handoff.expected = []) then
      duplicateCheck r.ref (lapAtLoopHead r.ref b) else lapAtLoopHead r.ref b := ⟨_, rfl⟩
  have h2 : Rewritten b (s.track.table.map (besideMarked duplicate r.tag) ++ [x])
      (if duplicate then raised .duplicates w.supervision else w.supervision) d := by
    by_cases hexp : s.handoff.expected = []
    · rw [decide_eq_true hexp, Bool.true_and] at hdup
      rw [decide_eq_true hexp, if_pos rfl] at hd
      have hbexp : b.handoff.expected = [] := by
        rw [hraise]
        show w.handoff.expected = []
        rw [hhandoff]
        show s.handoff.expected.filter _ = []
        rw [hexp]
        rfl
      have h := rewritten_duplicateCheck hbrefs h1 hbexp (hdup.trans (by rw [hetag]))
      rw [hetag, heref, map_besideMarked hdup, hchecked] at h
      rw [hd]
      exact h
    · rw [decide_eq_false hexp, Bool.false_and] at hdup
      rw [decide_eq_false hexp, if_neg Bool.false_ne_true] at hd
      rw [hd, ← hchecked, hdup, map_besideMarked_false]
      exact h1
  have h3 := rewritten_settleArming hbrefs h2 (by rw [hx]; rfl) (by rw [hx]; rfl)
    (by rw [hx, hbposition]; rfl) (by rw [hx]; rfl) (by rw [hx, hbmerge]; exact hmerge)
    (by rwa [hbstart]) (by rwa [hbstart])
  have hxverdict : x.verdict = r.verdict := by rw [hx]; rfl
  have harms : armsAtOnce b x.verdict = armsAtOnce s r.verdict := by
    rw [armsAtOnce, hbstart, hxverdict]
    rfl
  have hxref : x.ref = r.ref := by rw [hx]; rfl
  rw [harms, hxref, hbstart, hx] at h3
  obtain ⟨z, hz⟩ : ∃ z, z = settleArming r.ref d := ⟨_, rfl⟩
  rw [← hz] at h3
  have hzrefs := h3.refsHeldOnce hbrefs
  have hzin := h3.inTable_tail hbrefs
  have hzstart : z.start = s.start := (congrArg (·.start) h3.1).trans hbstart
  have hzposition : z.position = s.position := (congrArg (·.position) h3.1).trans hbposition
  have hbag (armed : Bool) : (promotedBag duplicate armed s r).ref = r.ref
      ∧ (promotedBag duplicate armed s r).lead = some s.position.counter := by
    cases armed <;> exact ⟨rfl, rfl⟩
  obtain ⟨hbagRef, hbagLead⟩ := hbag (armsAtOnce s r.verdict)
  have hzin' : inTable z r.ref = some (promotedBag duplicate (armsAtOnce s r.verdict) s r) := by
    rw [← hbagRef]
    exact hzin
  have hsettled : settleOfferPoint r.ref z = z :=
    settleOfferPoint_of_ahead hzin' (by rw [hzposition]; exact hbagLead) (by rw [hzstart]; exact hlow)
      (by rw [hzstart]; exact hhigh)
  refine ⟨b, z, ?_, by rw [hbeq, hw], hzrefs, ?_, ?_, ?_, ?_⟩
  · rw [promote_eq, ← hw, ← hbeq, ← hd, ← hz, hsettled]
  · have hwheld : (heldRecord w r.ref).isSome = true :=
      heldRecord_isSome_of_mem (by rw [hwtable]; simp [promoted])
    have hbetween := requested_between (.refl w) hwexp hwheld (t' := z) (hbeq ▸ h3.2)
    exact hbetween.congr (by rw [hres]; rfl)
  · rw [← hw]
    exact h3
  · rw [← hw]
    exact hraise
  · rw [hkeeps.exceptions, hres]
    rfl

/-- The mark OVERSIZE comes after those of the loop head and the duplicate check. -/
theorem oversize_last (stray : Option StrayCause) (p : Prop) [Decidable p] (duplicate : Bool) :
    (if (if stray ≠ none then stray else if p then some .laps else if duplicate then some .duplicate
        else none) = none then some .oversize
      else if stray ≠ none then stray else if p then some .laps else if duplicate then some .duplicate
        else none)
      = if stray ≠ none then stray else if p then some .laps else if duplicate then some .duplicate
        else if true then some StrayCause.oversize else none := by
  cases stray with
  | some cause => simp
  | none => by_cases hp : p <;> cases duplicate <;> simp [hp]

/-- What a promoted record carries, whatever is marked and refused. -/
theorem promotedBag_carried (duplicate armed : Bool) (s : State) (r : Record) :
    (promotedBag duplicate armed s r).ref = r.ref ∧ (promotedBag duplicate armed s r).tag = r.tag
      ∧ (promotedBag duplicate armed s r).length = r.length
      ∧ (promotedBag duplicate armed s r).lengthDoubt = r.lengthDoubt
      ∧ (promotedBag duplicate armed s r).relabelled = r.relabelled
      ∧ (promotedBag duplicate armed s r).lead = some s.position.counter
      ∧ (promotedBag duplicate armed s r).trail = none
      ∧ (promotedBag duplicate armed s r).measuredHere = false
      ∧ (promotedBag duplicate armed s r).window = .notOpen
      ∧ (promotedBag duplicate armed s r).deadline = none
      ∧ (promotedBag duplicate armed s r).discardTimer = none := by
  cases armed <;> exact ⟨rfl, rfl, rfl, rfl, rfl, rfl, rfl, rfl, rfl, rfl, rfl⟩

/-- What an arming at once takes from the record. -/
theorem promotedBag_fields (duplicate armed : Bool) (s : State) (r : Record) :
    (promotedBag duplicate armed s r).verdictFixed = armed
      ∧ (promotedBag duplicate armed s r).refusals
        = (if armed then (refusedAs s.start.station .oversize r).refusals else r.refusals)
      ∧ (promotedBag duplicate armed s r).verdict = (if armed then .pass else r.verdict)
      ∧ (promotedBag duplicate armed s r).state = .onBelt
      ∧ (promotedBag duplicate armed s r).laps
        = (if s.start.image.loopHead then min 7 (r.laps + 1) else r.laps)
      ∧ (promotedBag duplicate armed s r).stray = (if r.stray ≠ none then r.stray
        else if s.start.image.loopHead = true
          ∧ s.start.image.lapLimit ≤ (if s.start.image.loopHead then min 7 (r.laps + 1) else r.laps)
          then some .laps
        else if duplicate then some .duplicate
        else if armed then some .oversize else none) := by
  cases armed with
  | false => exact ⟨rfl, rfl, rfl, rfl, rfl, rfl⟩
  | true =>
    refine ⟨rfl, rfl, rfl, rfl, rfl, ?_⟩
    exact oversize_last r.stray _ duplicate

theorem promotedCounts_get (duplicate armed : Bool) (u : SupervisionUnit) :
    (promotedCounts duplicate armed u).counters.get .refusals
        = (if armed then nextCount (u.counters.get .refusals) else u.counters.get .refusals)
      ∧ (promotedCounts duplicate armed u).counters.get .duplicates
        = (if duplicate then nextCount (u.counters.get .duplicates) else u.counters.get .duplicates)
      ∧ (promotedCounts duplicate armed u).counters.get .anonymous = u.counters.get .anonymous := by
  have hother {c d : Counter} (h : d ≠ c) (v : SupervisionUnit) :
      (raised c v).counters.get d = v.counters.get d := raised_get_other v h
  cases duplicate <;> cases armed <;>
    simp [promotedCounts, hother (c := .duplicates) (d := .refusals) (by decide),
      hother (c := .refusals) (d := .duplicates) (by decide),
      hother (c := .duplicates) (d := .anonymous) (by decide),
      hother (c := .refusals) (d := .anonymous) (by decide)]

/-- Settles O21: arrivals that a record waits for. -/
theorem arrivalPromotesHeldRecord : Obligations.ArrivalPromotesHeldRecord := by
  rintro s r duplicate armed hb hrun hclear hroom hr hdup hlow hhigh harm houtlets hmerge harmed
  obtain ⟨b, z, hpromote, -, hzrefs, hrequested, ⟨hz, hkeeps⟩, hbeq, hbexc⟩ :=
    promote_spec hb hr hdup hlow hhigh harm houtlets hmerge
  rw [show armsAtOnce s r.verdict = armed from harmed.symm] at hz
  obtain ⟨hposition, htrack, hres, hwoutlets, hhandoff, hstart, -⟩ :=
    occupancyRose_rest (s := promotedPlaced r s)
  have hwcounter (c : Counter) (hc : c ≠ .droppedNotices) :
      (occupancyRose (promotedPlaced r s)).supervision.counters.get c = s.counter c :=
    occupancyRose_counter hc (promotedPlaced r s)
  have hwcodes := occupancyRose_codes (promotedPlaced r s)
  obtain ⟨w, hw⟩ : ∃ w, w = occupancyRose (promotedPlaced r s) := ⟨_, rfl⟩
  rw [← hw] at hz hbeq hposition htrack hres hwoutlets hhandoff hstart hwcounter hwcodes
  obtain ⟨heref, htag, hlength, hdoubt, hrelabelled, hlead, htrail, hmeasured, hwindow, hdeadline,
    hdiscard⟩ := promotedBag_carried duplicate armed s r
  obtain ⟨hfixed, hentries, hverdict, hstate, hlaps, hstray⟩ := promotedBag_fields duplicate armed s r
  obtain ⟨e, he⟩ : ∃ e, e = promotedBag duplicate armed s r := ⟨_, rfl⟩
  rw [← he] at hz heref htag hlength hdoubt hrelabelled hlead htrail hmeasured hwindow hdeadline hdiscard
  rw [← he] at hfixed hentries hverdict hstate hlaps hstray
  have hztable : z.track.table = s.track.table.map (besideMarked duplicate r.tag) ++ [e] :=
    congrArg (·.track.table) hz
  have hzhandoff : z.handoff = (promotedPlaced r s).handoff :=
    (congrArg (·.handoff) hz).trans ((congrArg (·.handoff) hbeq).trans hhandoff)
  have hzposition : z.position = s.position :=
    (congrArg (·.position) hz).trans ((congrArg (·.position) hbeq).trans hposition)
  have hzstart : z.start = s.start :=
    (congrArg (·.start) hz).trans ((congrArg (·.start) hbeq).trans hstart)
  have hzoutlets : z.outlets = s.outlets :=
    (congrArg (·.outlets) hz).trans ((congrArg (·.outlets) hbeq).trans hwoutlets)
  have hzcodes : z.induction.codes = s.induction.codes :=
    (congrArg (·.induction.codes) hz).trans ((congrArg (·.induction.codes) hbeq).trans hwcodes)
  have hzentry : z.track.openEntry = some r.ref := (congrArg (·.track.openEntry) hz).trans
    ((congrArg (·.track.openEntry) hbeq).trans (congrArg (·.openEntry) htrack))
  have hzseq : z.track.bagSeq = s.track.bagSeq := (congrArg (·.track.bagSeq) hz).trans
    ((congrArg (·.track.bagSeq) hbeq).trans (congrArg (·.bagSeq) htrack))
  have hzexp : inExpected z r.ref = none := by
    rw [inExpected, hzhandoff]
    exact findIn_filter_same _ _
  have hzpend : inPendingOffers z r.ref = none := by
    rw [inPendingOffers, hzhandoff]
    exact findIn_filter_same _ _
  have hheads := headsLeave_settleHead hzrefs
  obtain ⟨h, hh⟩ : ∃ h, h = settleHead z := ⟨_, rfl⟩
  have hexec := exec_entryEyeArrival hrun hclear
  rw [entryArrival_of_found hroom hr, hpromote, ← hh] at hexec
  rw [← hh] at hheads
  obtain ⟨htPosition, htTrack, htRes, htOutlets, htStart, htCodes, -⟩ := eventEnd_rest h
  obtain ⟨htCounter, -, -⟩ := eventEnd_supervision h
  obtain ⟨htExp, htPend, -⟩ := eventEnd_handoff h
  have htTable : (arbitrate (decidePermit h)).track.table = z.track.table :=
    (congrArg _ htTrack).trans hheads.table
  have hcounter (c : Counter) (hm : c ≠ .missing) (hd : c ≠ .droppedNotices) :
      (arbitrate (decidePermit h)).counter c
        = (promotedCounts duplicate armed w.supervision).counters.get c := by
    rw [htCounter, hheads.counters c hm hd, hz]
    rfl
  obtain ⟨hrefusals, hduplicates, hanonymous⟩ := promotedCounts_get duplicate armed w.supervision
  refine ⟨e, _, hexec, ?_, ?_, ?_, ?_, ?_, htag, hlength, hdoubt, hrelabelled, hfixed, hentries, hverdict,
    ?_, hlaps, hlead, htrail, hmeasured, hwindow, hstate, hdeadline, hdiscard, hlaps ▸ hstray,
    fun x hx => ?_, ?_, ?_, ?_, ?_, permitFollows_arbitrate_decidePermit h, ?_, ?_, ?_, ?_, ?_⟩
  · rw [htTable, hztable, List.map_append, List.map_map, List.map_singleton, heref]
    congr 1
    exact List.map_congr_left fun x _ => besideMarked_ref _ _ x
  · rw [inTable_congr htTable, ← heref]
    exact inTable_of_mem hzrefs (mem_joined hztable)
  · rw [htTrack]
    refine hheads.entry _ hzentry fun ref href => ?_
    rw [← Option.some.inj href]
    exact hzexp
  · rw [inExpected, htExp]
    exact hheads.absent _ hzexp
  · rw [inPendingOffers, htPend, hheads.pending]
    exact hzpend
  · rw [hcounter _ (by decide) (by decide), hrefusals, hwcounter _ (by decide)]
  · rw [inTable_congr htTable, ← besideMarked_ref duplicate r.tag x]
    refine inTable_of_mem hzrefs ?_
    rw [hztable]
    exact List.mem_append_left _ (List.mem_map_of_mem hx)
  · rw [hcounter _ (by decide) (by decide), hduplicates, hwcounter _ (by decide)]
  · have hreq := hheads.requested hrequested hzexp
    rwa [Requested, ← htRes] at hreq
  · rw [hcounter _ (by decide) (by decide), hanonymous, hwcounter _ (by decide)]
  · rw [htTrack, hheads.bagSeq, hzseq]
  · rw [htCodes, hheads.codes, hzcodes]
  · rw [htPosition, hheads.position, hzposition]
  · rw [htStart, hheads.start, hzstart]
  · intro k
    rw [htOutlets, hheads.outlets k, hzoutlets]
  · rw [htRes, hheads.exceptions, hkeeps.exceptions]
    exact hbexc

end

end Sys2Proof.Machine
